-- ==== Sys2Proof/Word.lean ====
section
/-! DEFINITION. The word types of the block (`00_scope.md` R8). -/

namespace Sys2Proof

/-- A raw input sample, 8 bits unsigned (`00_scope.md` R8). -/
abbrev Byte := BitVec 8

/-- Control-port data, a counter or a binary32 pattern: 32 bits (`00_scope.md` R8). -/
abbrev Word := BitVec 32

end Sys2Proof
end

