-- ==== Sys2Proof/Config.lean ====
section
/-! DEFINITION. The parameters fixed when the block is elaborated (`00_scope.md` R6). The spec leaves no value to the
implementation beyond them, so there is no free value here. -/

namespace Sys2Proof

/-- The two elaboration parameters (`00_scope.md` R6). They are OPEN: every statement about the block ranges over them.
They are plain data, and `Params.legal` says which values elaboration accepts. -/
structure Params where
  /-- `RATIO`: input sample pairs averaged per output frame. -/
  ratio : Nat
  /-- `FRAMES`: output frames per invocation. -/
  frames : Nat
  deriving DecidableEq, Repr

/-- The reference values that `00_scope.md` R6 names for the test vectors, `RATIO = 5` and `FRAMES = 10`.
DESIGN CHOICE (log 1): `State.reset` is elaborated with them; unsafe for a claim about `State.reset` alone. -/
def Params.reference : Params := { ratio := 5, frames := 10 }

end Sys2Proof
end

