-- ==== Sys2Proof/Syntax.lean ====
section
/-! DEFINITION. The operations of the block, one constructor per row of `spec/opcode_table.json` (`30_encoding.md` R79),
and the words the four ports carry (R70). -/

namespace Sys2Proof

/-- The four input ports, one per format (`30_encoding.md` R70). -/
inductive Port where
  /-- The control request port, driven by the Host. -/
  | ctl
  /-- The input stream port, driven by the Source. -/
  | iq
  /-- The sink response port, driven by the Sink. -/
  | snk
  /-- The reset input. -/
  | rst
  deriving DecidableEq, Repr

/-- A word offered on a port, of that port's width (`30_encoding.md` R70). The port, never the bits, tells the format. -/
inductive Offer where
  /-- The request `{WE, ADDR[7:0], WDATA[31:0]}` (R75). -/
  | ctl (request : BitVec 41)
  /-- The beat `{LAST, DATA[7:0]}` (R71). -/
  | iq (beat : BitVec 9)
  /-- The response `{ERR, ACC}` (R74). -/
  | snk (response : BitVec 2)
  /-- The level `RST` (R76). -/
  | rst (level : BitVec 1)
  deriving DecidableEq, Repr

/-- The port an offered word stands on. -/
def Offer.port : Offer → Port
  | .ctl _ => .ctl
  | .iq _ => .iq
  | .snk _ => .snk
  | .rst _ => .rst

/-- The operations of `30_encoding.md` R79. An operand keeps every bit its row leaves free, the ignored ones too:
`a` is `ADDR[1:0]` and `off` the whole `ADDR` (both ignored by the effect, R75), `d` is `WDATA` (ignored by a read). -/
inductive Instr where
  /-- `CTL_RD_CTRL` (`44_control.md` R192). -/
  | ctlRdCtrl (a : BitVec 2) (d : Word)
  /-- `CTL_WR_CTRL` (`44_control.md` R191). -/
  | ctlWrCtrl (a : BitVec 2) (d : Word)
  /-- `CTL_RD_STATUS` (`44_control.md` R195). -/
  | ctlRdStatus (a : BitVec 2) (d : Word)
  /-- `CTL_WR_STATUS` (`44_control.md` R193). -/
  | ctlWrStatus (a : BitVec 2) (d : Word)
  /-- `CTL_RD_SHUTDOWN` (`44_control.md` R199). -/
  | ctlRdShutdown (a : BitVec 2) (d : Word)
  /-- `CTL_WR_SHUTDOWN` (`44_control.md` R194). -/
  | ctlWrShutdown (a : BitVec 2) (d : Word)
  /-- `CTL_RD_PEAK` (`44_control.md` R200). -/
  | ctlRdPeak (a : BitVec 2) (d : Word)
  /-- `CTL_WR_PEAK` (`44_control.md` R196). -/
  | ctlWrPeak (a : BitVec 2) (d : Word)
  /-- `CTL_RD_DONE_CNT` (`44_control.md` R201). -/
  | ctlRdDoneCnt (a : BitVec 2) (d : Word)
  /-- `CTL_WR_DONE_CNT` (`44_control.md` R196). -/
  | ctlWrDoneCnt (a : BitVec 2) (d : Word)
  /-- `CTL_RD_LAST_ACC` (`44_control.md` R202). -/
  | ctlRdLastAcc (a : BitVec 2) (d : Word)
  /-- `CTL_WR_LAST_ACC` (`44_control.md` R196). -/
  | ctlWrLastAcc (a : BitVec 2) (d : Word)
  /-- `CTL_RD_CFG_RATIO` (`44_control.md` R203). -/
  | ctlRdCfgRatio (a : BitVec 2) (d : Word)
  /-- `CTL_WR_CFG_RATIO` (`44_control.md` R196). -/
  | ctlWrCfgRatio (a : BitVec 2) (d : Word)
  /-- `CTL_RD_CFG_FRAMES` (`44_control.md` R204). -/
  | ctlRdCfgFrames (a : BitVec 2) (d : Word)
  /-- `CTL_WR_CFG_FRAMES` (`44_control.md` R196). -/
  | ctlWrCfgFrames (a : BitVec 2) (d : Word)
  /-- `CTL_RD_RSVD_20`, offsets `0x20` to `0x3F` (`44_control.md` R198). -/
  | ctlRdRsvd20 (off : Byte) (d : Word)
  /-- `CTL_RD_RSVD_40`, offsets `0x40` to `0x7F` (`44_control.md` R198). -/
  | ctlRdRsvd40 (off : Byte) (d : Word)
  /-- `CTL_RD_RSVD_80`, offsets `0x80` to `0xFF` (`44_control.md` R198). -/
  | ctlRdRsvd80 (off : Byte) (d : Word)
  /-- `CTL_WR_RSVD_20`, offsets `0x20` to `0x3F` (`44_control.md` R197). -/
  | ctlWrRsvd20 (off : Byte) (d : Word)
  /-- `CTL_WR_RSVD_40`, offsets `0x40` to `0x7F` (`44_control.md` R197). -/
  | ctlWrRsvd40 (off : Byte) (d : Word)
  /-- `CTL_WR_RSVD_80`, offsets `0x80` to `0xFF` (`44_control.md` R197). -/
  | ctlWrRsvd80 (off : Byte) (d : Word)
  /-- `IQ_BEAT v`, a byte of a raw buffer that is not its last (`40_invocation.md` R102). -/
  | iqBeat (v : Byte)
  /-- `IQ_BEAT_LAST v`, the last byte of a raw buffer (`40_invocation.md` R104). -/
  | iqBeatLast (v : Byte)
  /-- `SNK_ACCEPT` (`43_formatter.md` R164). -/
  | snkAccept
  /-- `SNK_ERROR` (`43_formatter.md` R165). `acc` is the `ACC` bit, which `ERR` overrides (`30_encoding.md` R74). -/
  | snkError (acc : BitVec 1)
  /-- `RST` (`70_reset_and_hazards.md` R240). -/
  | rst
  deriving DecidableEq, Repr

/-- The port an operation arrives on (`30_encoding.md` R70). -/
def Instr.port : Instr → Port
  | .iqBeat _ | .iqBeatLast _ => .iq
  | .snkAccept | .snkError _ => .snk
  | .rst => .rst
  | .ctlRdCtrl _ _ | .ctlWrCtrl _ _ | .ctlRdStatus _ _ | .ctlWrStatus _ _ | .ctlRdShutdown _ _ | .ctlWrShutdown _ _
  | .ctlRdPeak _ _ | .ctlWrPeak _ _ | .ctlRdDoneCnt _ _ | .ctlWrDoneCnt _ _ | .ctlRdLastAcc _ _ | .ctlWrLastAcc _ _
  | .ctlRdCfgRatio _ _ | .ctlWrCfgRatio _ _ | .ctlRdCfgFrames _ _ | .ctlWrCfgFrames _ _
  | .ctlRdRsvd20 _ _ | .ctlRdRsvd40 _ _ | .ctlRdRsvd80 _ _ | .ctlWrRsvd20 _ _ | .ctlWrRsvd40 _ _
  | .ctlWrRsvd80 _ _ => .ctl

end Sys2Proof
end

