-- ==== Sys2Proof/WellFormed.lean ====
section
/-! DEFINITION. Which parameters elaboration accepts (`00_scope.md` R6) and which instruction terms are well formed
(`30_encoding.md` R79). -/

namespace Sys2Proof

/-- The legal parameters: "Elaboration refuses `RATIO = 0`, `FRAMES = 0`, and any product that breaks the bound"
`2*FRAMES*RATIO <= 2^32 - 1` (`00_scope.md` R6). -/
def Params.legal (p : Params) : Bool :=
  1 ≤ p.ratio && 1 ≤ p.frames && 2 * p.frames * p.ratio ≤ 2 ^ 32 - 1

/-- Elaboration: the parameters where they are legal, nothing where it refuses them (`00_scope.md` R6). -/
def Params.elaborate (ratio frames : Nat) : Option Params :=
  if Params.legal { ratio := ratio, frames := frames } then some { ratio := ratio, frames := frames } else none

/-- The offset lies in the range of the row `CTL_*_RSVD_20` (`30_encoding.md` R79). -/
def inRsvd20 (off : Byte) : Bool := 0x20#8 ≤ off && off ≤ 0x3F#8

/-- The offset lies in the range of the row `CTL_*_RSVD_40` (`30_encoding.md` R79). -/
def inRsvd40 (off : Byte) : Bool := 0x40#8 ≤ off && off ≤ 0x7F#8

/-- The offset lies in the range of the row `CTL_*_RSVD_80` (`30_encoding.md` R79). -/
def inRsvd80 (off : Byte) : Bool := 0x80#8 ≤ off

/-- A reserved-offset operation is well formed when its offset lies in its row's range; every other operand has exactly
the width of its field, so every other term is well formed (`30_encoding.md` R79, R81). -/
def Instr.wellFormed : Instr → Bool
  | .ctlRdRsvd20 off _ | .ctlWrRsvd20 off _ => inRsvd20 off
  | .ctlRdRsvd40 off _ | .ctlWrRsvd40 off _ => inRsvd40 off
  | .ctlRdRsvd80 off _ | .ctlWrRsvd80 off _ => inRsvd80 off
  | .ctlRdCtrl _ _ | .ctlWrCtrl _ _ | .ctlRdStatus _ _ | .ctlWrStatus _ _ | .ctlRdShutdown _ _ | .ctlWrShutdown _ _
  | .ctlRdPeak _ _ | .ctlWrPeak _ _ | .ctlRdDoneCnt _ _ | .ctlWrDoneCnt _ _ | .ctlRdLastAcc _ _ | .ctlWrLastAcc _ _
  | .ctlRdCfgRatio _ _ | .ctlWrCfgRatio _ _ | .ctlRdCfgFrames _ _ | .ctlWrCfgFrames _ _
  | .iqBeat _ | .iqBeatLast _ | .snkAccept | .snkError _ | .rst => true

end Sys2Proof
end

