-- ==== Sys2Proof/Decode.lean ====
section
/-! DEFINITION. The decoder, total on every port (`30_encoding.md` R81), the encoder, the operation map as a table
(R79), and the reading of a word numbered as `spec/opcode_table.json` numbers it. -/

namespace Sys2Proof

/-- The two words that are the absence of an operation, by name (`30_encoding.md` R81). -/
inductive NoOperation where
  /-- `snk = 00`: the Sink is stalling (`30_encoding.md` R74). -/
  | sinkStall
  /-- `rst = 0`: reset is not asserted (`30_encoding.md` R76). -/
  | resetIdle
  deriving DecidableEq, Repr

/-- What a port makes of the word offered on it: an operation, or by name the absence of one. -/
inductive Decoded where
  /-- The word is this operation. -/
  | operation (i : Instr)
  /-- The word is the absence of an operation. -/
  | noOperation (why : NoOperation)
  deriving DecidableEq, Repr

/-- A `ctl` read request by its register `ADDR[7:2]` (`30_encoding.md` R75, R79). -/
def decodeRead (off : Byte) (d : Word) : Instr :=
  match (off.extractLsb' 2 6).toNat with
  | 0 => .ctlRdCtrl (off.extractLsb' 0 2) d
  | 1 => .ctlRdStatus (off.extractLsb' 0 2) d
  | 2 => .ctlRdShutdown (off.extractLsb' 0 2) d
  | 3 => .ctlRdPeak (off.extractLsb' 0 2) d
  | 4 => .ctlRdDoneCnt (off.extractLsb' 0 2) d
  | 5 => .ctlRdLastAcc (off.extractLsb' 0 2) d
  | 6 => .ctlRdCfgRatio (off.extractLsb' 0 2) d
  | 7 => .ctlRdCfgFrames (off.extractLsb' 0 2) d
  | _ => if inRsvd80 off then .ctlRdRsvd80 off d else if inRsvd40 off then .ctlRdRsvd40 off d else .ctlRdRsvd20 off d

/-- A `ctl` write request by its register `ADDR[7:2]` (`30_encoding.md` R75, R79). -/
def decodeWrite (off : Byte) (d : Word) : Instr :=
  match (off.extractLsb' 2 6).toNat with
  | 0 => .ctlWrCtrl (off.extractLsb' 0 2) d
  | 1 => .ctlWrStatus (off.extractLsb' 0 2) d
  | 2 => .ctlWrShutdown (off.extractLsb' 0 2) d
  | 3 => .ctlWrPeak (off.extractLsb' 0 2) d
  | 4 => .ctlWrDoneCnt (off.extractLsb' 0 2) d
  | 5 => .ctlWrLastAcc (off.extractLsb' 0 2) d
  | 6 => .ctlWrCfgRatio (off.extractLsb' 0 2) d
  | 7 => .ctlWrCfgFrames (off.extractLsb' 0 2) d
  | _ => if inRsvd80 off then .ctlWrRsvd80 off d else if inRsvd40 off then .ctlWrRsvd40 off d else .ctlWrRsvd20 off d

/-- Format `ctl`: `WE` is bit 40, `ADDR` bits 39 to 32, `WDATA` bits 31 to 0 (`30_encoding.md` R70, R75). -/
def decodeCtl (r : BitVec 41) : Instr :=
  if r.getLsbD 40 then decodeWrite (r.extractLsb' 32 8) (r.extractLsb' 0 32)
  else decodeRead (r.extractLsb' 32 8) (r.extractLsb' 0 32)

/-- Format `iq`: `LAST` is bit 8, `DATA` bits 7 to 0 (`30_encoding.md` R70, R71). -/
def decodeIq (b : BitVec 9) : Instr :=
  if b.getLsbD 8 then .iqBeatLast (b.extractLsb' 0 8) else .iqBeat (b.extractLsb' 0 8)

/-- Format `snk`: `ERR` is bit 1 and has priority, `ACC` is bit 0 (`30_encoding.md` R74). -/
def decodeSnk (r : BitVec 2) : Decoded :=
  if r.getLsbD 1 then .operation (.snkError (r.extractLsb' 0 1))
  else if r.getLsbD 0 then .operation .snkAccept
  else .noOperation .sinkStall

/-- Format `rst`: `RST` is bit 0 (`30_encoding.md` R76). -/
def decodeRst (l : BitVec 1) : Decoded :=
  if l.getLsbD 0 then .operation .rst else .noOperation .resetIdle

/-- The decoder: the port tells the format (`30_encoding.md` R70), and it is total (R81). -/
def decode : Offer → Decoded
  | .ctl r => .operation (decodeCtl r)
  | .iq b => .operation (decodeIq b)
  | .snk r => decodeSnk r
  | .rst l => decodeRst l

/-- A request: `WE` in bit 40, `ADDR` in bits 39:32, `WDATA` in bits 31:0 (`30_encoding.md` R70, R75). -/
def request (we : BitVec 1) (off : Byte) (d : Word) : BitVec 41 := (we ++ off) ++ d

/-- The address of a named register: its number in `ADDR[7:2]`, the ignored bits `ADDR[1:0]` (`30_encoding.md` R75). -/
def namedOffset (reg : BitVec 6) (a : BitVec 2) : Byte := reg ++ a

/-- The read request of a named register (`30_encoding.md` R79). -/
def encodeRead (reg : BitVec 6) (a : BitVec 2) (d : Word) : Offer := .ctl (request 0 (namedOffset reg a) d)

/-- The write request of a named register (`30_encoding.md` R79). -/
def encodeWrite (reg : BitVec 6) (a : BitVec 2) (d : Word) : Offer := .ctl (request 1 (namedOffset reg a) d)

/-- The encoder, from the patterns of `30_encoding.md` R79. -/
def encode : Instr → Offer
  | .ctlRdCtrl a d => encodeRead 0 a d
  | .ctlWrCtrl a d => encodeWrite 0 a d
  | .ctlRdStatus a d => encodeRead 1 a d
  | .ctlWrStatus a d => encodeWrite 1 a d
  | .ctlRdShutdown a d => encodeRead 2 a d
  | .ctlWrShutdown a d => encodeWrite 2 a d
  | .ctlRdPeak a d => encodeRead 3 a d
  | .ctlWrPeak a d => encodeWrite 3 a d
  | .ctlRdDoneCnt a d => encodeRead 4 a d
  | .ctlWrDoneCnt a d => encodeWrite 4 a d
  | .ctlRdLastAcc a d => encodeRead 5 a d
  | .ctlWrLastAcc a d => encodeWrite 5 a d
  | .ctlRdCfgRatio a d => encodeRead 6 a d
  | .ctlWrCfgRatio a d => encodeWrite 6 a d
  | .ctlRdCfgFrames a d => encodeRead 7 a d
  | .ctlWrCfgFrames a d => encodeWrite 7 a d
  | .ctlRdRsvd20 off d => .ctl (request 0 off d)
  | .ctlRdRsvd40 off d => .ctl (request 0 off d)
  | .ctlRdRsvd80 off d => .ctl (request 0 off d)
  | .ctlWrRsvd20 off d => .ctl (request 1 off d)
  | .ctlWrRsvd40 off d => .ctl (request 1 off d)
  | .ctlWrRsvd80 off d => .ctl (request 1 off d)
  | .iqBeat v => .iq (0#1 ++ v)
  | .iqBeatLast v => .iq (1#1 ++ v)
  | .snkAccept => .snk 0b01#2
  | .snkError acc => .snk (1#1 ++ acc)
  | .rst => .rst 1#1

/-- One row of the operation map: the word `o` of port `port` is this row's operation when `o &&& mask = pattern`
(`30_encoding.md` R79). Words narrower than 41 bits are read with zeros above. -/
structure Row where
  /-- The mnemonic of the row. -/
  mnemonic : String
  /-- The port that gives the row's format. -/
  port : Port
  /-- The row's `match`. -/
  pattern : BitVec 41
  /-- The row's `mask`. -/
  mask : BitVec 41
  deriving DecidableEq, Repr

/-- The rows of the named registers in the operation map (`30_encoding.md` R79). -/
def namedRows : List Row :=
  [ ⟨"CTL_RD_CTRL", .ctl, 0x00000000000, 0x1FC00000000⟩,
    ⟨"CTL_WR_CTRL", .ctl, 0x10000000000, 0x1FC00000000⟩,
    ⟨"CTL_RD_STATUS", .ctl, 0x00400000000, 0x1FC00000000⟩,
    ⟨"CTL_WR_STATUS", .ctl, 0x10400000000, 0x1FC00000000⟩,
    ⟨"CTL_RD_SHUTDOWN", .ctl, 0x00800000000, 0x1FC00000000⟩,
    ⟨"CTL_WR_SHUTDOWN", .ctl, 0x10800000000, 0x1FC00000000⟩,
    ⟨"CTL_RD_PEAK", .ctl, 0x00C00000000, 0x1FC00000000⟩,
    ⟨"CTL_WR_PEAK", .ctl, 0x10C00000000, 0x1FC00000000⟩,
    ⟨"CTL_RD_DONE_CNT", .ctl, 0x01000000000, 0x1FC00000000⟩,
    ⟨"CTL_WR_DONE_CNT", .ctl, 0x11000000000, 0x1FC00000000⟩,
    ⟨"CTL_RD_LAST_ACC", .ctl, 0x01400000000, 0x1FC00000000⟩,
    ⟨"CTL_WR_LAST_ACC", .ctl, 0x11400000000, 0x1FC00000000⟩,
    ⟨"CTL_RD_CFG_RATIO", .ctl, 0x01800000000, 0x1FC00000000⟩,
    ⟨"CTL_WR_CFG_RATIO", .ctl, 0x11800000000, 0x1FC00000000⟩,
    ⟨"CTL_RD_CFG_FRAMES", .ctl, 0x01C00000000, 0x1FC00000000⟩,
    ⟨"CTL_WR_CFG_FRAMES", .ctl, 0x11C00000000, 0x1FC00000000⟩ ]

/-- The rows of the reserved offsets in the operation map (`30_encoding.md` R79). -/
def reservedRows : List Row :=
  [ ⟨"CTL_RD_RSVD_20", .ctl, 0x02000000000, 0x1E000000000⟩,
    ⟨"CTL_RD_RSVD_40", .ctl, 0x04000000000, 0x1C000000000⟩,
    ⟨"CTL_RD_RSVD_80", .ctl, 0x08000000000, 0x18000000000⟩,
    ⟨"CTL_WR_RSVD_20", .ctl, 0x12000000000, 0x1E000000000⟩,
    ⟨"CTL_WR_RSVD_40", .ctl, 0x14000000000, 0x1C000000000⟩,
    ⟨"CTL_WR_RSVD_80", .ctl, 0x18000000000, 0x18000000000⟩ ]

/-- The rows of the two streams and of reset in the operation map (`30_encoding.md` R79). -/
def streamRows : List Row :=
  [ ⟨"IQ_BEAT", .iq, 0x000, 0x100⟩,
    ⟨"IQ_BEAT_LAST", .iq, 0x100, 0x100⟩,
    ⟨"SNK_ACCEPT", .snk, 0x1, 0x3⟩,
    ⟨"SNK_ERROR", .snk, 0x2, 0x2⟩,
    ⟨"RST", .rst, 0x1, 0x1⟩ ]

/-- The complete operation map, 27 rows (`30_encoding.md` R79). -/
def operationMap : List Row := namedRows ++ reservedRows ++ streamRows

/-- The bits of an offered word with zeros above them. -/
def Offer.bits : Offer → BitVec 41
  | .ctl r => r
  | .iq b => b.setWidth 41
  | .snk r => r.setWidth 41
  | .rst l => l.setWidth 41

/-- The row stands for the offered word (`30_encoding.md` R79). -/
def Row.covers (r : Row) (o : Offer) : Bool := r.port == o.port && o.bits &&& r.mask == r.pattern

/-- The mnemonic of an operation in `spec/opcode_table.json`. -/
def Instr.mnemonic : Instr → String
  | .ctlRdCtrl _ _ => "CTL_RD_CTRL"
  | .ctlWrCtrl _ _ => "CTL_WR_CTRL"
  | .ctlRdStatus _ _ => "CTL_RD_STATUS"
  | .ctlWrStatus _ _ => "CTL_WR_STATUS"
  | .ctlRdShutdown _ _ => "CTL_RD_SHUTDOWN"
  | .ctlWrShutdown _ _ => "CTL_WR_SHUTDOWN"
  | .ctlRdPeak _ _ => "CTL_RD_PEAK"
  | .ctlWrPeak _ _ => "CTL_WR_PEAK"
  | .ctlRdDoneCnt _ _ => "CTL_RD_DONE_CNT"
  | .ctlWrDoneCnt _ _ => "CTL_WR_DONE_CNT"
  | .ctlRdLastAcc _ _ => "CTL_RD_LAST_ACC"
  | .ctlWrLastAcc _ _ => "CTL_WR_LAST_ACC"
  | .ctlRdCfgRatio _ _ => "CTL_RD_CFG_RATIO"
  | .ctlWrCfgRatio _ _ => "CTL_WR_CFG_RATIO"
  | .ctlRdCfgFrames _ _ => "CTL_RD_CFG_FRAMES"
  | .ctlWrCfgFrames _ _ => "CTL_WR_CFG_FRAMES"
  | .ctlRdRsvd20 _ _ => "CTL_RD_RSVD_20"
  | .ctlRdRsvd40 _ _ => "CTL_RD_RSVD_40"
  | .ctlRdRsvd80 _ _ => "CTL_RD_RSVD_80"
  | .ctlWrRsvd20 _ _ => "CTL_WR_RSVD_20"
  | .ctlWrRsvd40 _ _ => "CTL_WR_RSVD_40"
  | .ctlWrRsvd80 _ _ => "CTL_WR_RSVD_80"
  | .iqBeat _ => "IQ_BEAT"
  | .iqBeatLast _ => "IQ_BEAT_LAST"
  | .snkAccept => "SNK_ACCEPT"
  | .snkError _ => "SNK_ERROR"
  | .rst => "RST"

/-- The port word that a table word of `nbits` bits stands for, `nbits` being the row's width or that width in whole
bytes. DESIGN CHOICE (log 7): the table's 2-bit `snk` rows and its 1-bit `rst` row are both one byte, and the value 1 is
an operation of either; read as one byte it is `RST`, because no `snk` operation exists right after reset
(`30_encoding.md` R74). With the exact widths 1 and 2 the two are told apart. -/
def tableOffer (nbits w : Nat) : Option Offer :=
  if nbits = 1 ∧ w < 2 then some (.rst (BitVec.ofNat 1 w))
  else if nbits = 2 ∧ w < 4 then some (.snk (BitVec.ofNat 2 w))
  else if nbits = 8 ∧ w = 1 then some (.rst 1#1)
  else if nbits = 8 ∧ w < 4 then some (.snk (BitVec.ofNat 2 w))
  else if (nbits = 9 ∨ nbits = 16) ∧ w < 2 ^ 9 then some (.iq (BitVec.ofNat 9 w))
  else if (nbits = 41 ∨ nbits = 48) ∧ w < 2 ^ 41 then some (.ctl (BitVec.ofNat 41 w))
  else none

/-- The operation the decoder reads from a word numbered as `spec/opcode_table.json` numbers its rows' bits. -/
def decodeTableWord (nbits w : Nat) : Option Instr :=
  match tableOffer nbits w with
  | none => none
  | some o =>
    match decode o with
    | .operation i => some i
    | .noOperation _ => none

end Sys2Proof
end

