-- ==== Sys2Proof/Machine/State.lean ====
section
/-! DEFINITION. The block's state exactly as `10_state.md` R20 lists it, the parameters it was elaborated with, the
external agents as plain data, and reset. -/

namespace Sys2Proof.Machine

/-- The Channel Routing Mode, the legal values of `CTRL.ROUTE` and `inv_route` (`10_state.md` R22). The reserved value
`11` has no constructor: "`ROUTE` never holds `11`". -/
inductive Route where
  /-- `00`: the sample goes to both slots. -/
  | both
  /-- `01`: the sample goes to slot 0. -/
  | left
  /-- `10`: the sample goes to slot 1. -/
  | right
  deriving DecidableEq, Repr

/-- The Engine's sequencer phase (`10_state.md` R30). -/
inductive Phase where
  /-- No invocation in flight. -/
  | idle
  /-- The first beat of a buffer has been taken and its last beat has not. -/
  | collect
  /-- Frames `w` to `FRAMES-1` of `OUTBUF` are still to be handed to the Sink. -/
  | sink
  deriving DecidableEq, Repr

/-- One frame of `OUTBUF`: slot 0 is Left, slot 1 is Right (`10_state.md` R36, `20_memory.md` R52). -/
structure Frame where
  /-- `OUTBUF[j][0]`. -/
  left : Word
  /-- `OUTBUF[j][1]`. -/
  right : Word
  deriving DecidableEq, Repr

/-- The block's complete state, "exactly these fields and no others" (`10_state.md` R20). The integers of given width
are kept exact (log 8); `Sys2Proof.Safety` states that they stay within their widths. -/
structure Block where
  /-- `CTRL.ROUTE` (R22). -/
  route : Route
  /-- `CTRL.CLAMP` (R22). -/
  clamp : Bool
  /-- `CANCEL`, the Cancellation Flag (R24). -/
  cancel : Bool
  /-- `LEN_ERR`, sticky (R25). -/
  lenErr : Bool
  /-- `SINK_ERR`, sticky (R26). -/
  sinkErr : Bool
  /-- `PEAK`, a binary32 pattern (R27). -/
  peak : Word
  /-- `DONE_CNT` (R28). -/
  doneCnt : Word
  /-- `LAST_ACC` (R29). -/
  lastAcc : Word
  /-- `phase` (R30). -/
  phase : Phase
  /-- `inv_cancel`, the snapshot of `CANCEL` (R31). -/
  invCancel : Bool
  /-- `inv_route`, the snapshot of `CTRL.ROUTE` (R31). -/
  invRoute : Route
  /-- `inv_clamp`, the snapshot of `CTRL.CLAMP` (R31). -/
  invClamp : Bool
  /-- `n`, the bytes of the current buffer used so far (R32). -/
  n : Nat
  /-- `over` in the spec: the buffer had a byte beyond the `RAWLEN`-th (R32). -/
  overLen : Bool
  /-- `accI`, the I lane's running sum (R33). -/
  accI : Int
  /-- `accQ`, the Q lane's running sum (R33). -/
  accQ : Int
  /-- `emax`, the largest energy of the invocation so far (R34). -/
  emax : Nat
  /-- `w`, the index of the next frame to hand to the Sink (R35). -/
  w : Nat
  /-- `OUTBUF`, `FRAMES` frames (R36). -/
  outbuf : List Frame
  deriving DecidableEq, Repr

/-- The external agents as plain data (log 2, log 5): what each will offer on its port, next first; whose turn comes
next; and what the Host and the Sink have been given, oldest first. None of it is the block's state. -/
structure Env where
  /-- The ports in the order their agents move, next first (`00_scope.md` R9, R14). -/
  turns : List Port
  /-- Requests the Host will offer. -/
  ctlIn : List (BitVec 41)
  /-- Beats the Source will offer. -/
  iqIn : List (BitVec 9)
  /-- Responses the Sink will give. -/
  snkIn : List (BitVec 2)
  /-- Levels of the reset input. -/
  rstIn : List (BitVec 1)
  /-- The `ctl_rdata` words the Host has been answered (`30_encoding.md` R75). -/
  hostGot : List Word
  /-- The `snk_data` frames the Sink has taken (`30_encoding.md` R73, `43_formatter.md` R164). -/
  sinkGot : List (BitVec 64)
  deriving DecidableEq, Repr

/-- The machine: the parameters the block was elaborated with (`00_scope.md` R6), the block (`10_state.md` R20) and the
external agents (`00_scope.md` R9). -/
structure State where
  /-- `RATIO` and `FRAMES`, never written (`10_state.md` R37). -/
  cfg : Params
  /-- The block's own state. -/
  block : Block
  /-- The external agents. -/
  env : Env
  deriving DecidableEq, Repr

/-- The ways the machine can stop with a fault: none. "The block has no fault mechanism"
(`93_implementation_defined.md` part 1; `60_exceptions.md` R221, R224). -/
inductive Fault where
  deriving DecidableEq, Repr

/-- The ways the model can refuse. No meaning and no step raises one. -/
inductive Refusal where
  /-- Raised only by an arm of `exec` for an instruction without a meaning (there is none); safe. -/
  | notModelled (mnemonic : String)
  deriving DecidableEq, Repr

/-- A frame of two +0.0 words, `ZERO32` (`00_scope.md` R13). -/
def Frame.zero : Frame := { left := 0, right := 0 }

/-- Every field at its reset value (`10_state.md` R20, `70_reset_and_hazards.md` R240). -/
def Block.reset (p : Params) : Block where
  route := .both
  clamp := false
  cancel := false
  lenErr := false
  sinkErr := false
  peak := 0
  doneCnt := 0
  lastAcc := 0
  phase := .idle
  invCancel := false
  invRoute := .both
  invClamp := false
  n := 0
  overLen := false
  accI := 0
  accQ := 0
  emax := 0
  w := 0
  outbuf := List.replicate p.frames Frame.zero

/-- No agent has offered anything and none has been answered (DESIGN CHOICE, log 6). -/
def Env.silent : Env where
  turns := []
  ctlIn := []
  iqIn := []
  snkIn := []
  rstIn := []
  hostGot := []
  sinkGot := []

/-- The machine right after reset, for a block elaborated with the parameters `p`. -/
def State.resetWith (p : Params) : State := { cfg := p, block := Block.reset p, env := Env.silent }

/-- The machine right after reset, elaborated with the reference parameters (DESIGN CHOICE, log 1). -/
def State.reset : State := State.resetWith Params.reference

end Sys2Proof.Machine
end

