-- ==== Sys2Proof/Machine/Operands.lean ====
section
/-! DEFINITION. Derived constants (`00_scope.md` R7), operand forms: sample codes (`30_encoding.md` R72), control
register fields (R77), frames as port words (R73), and channel routing (`43_formatter.md` R161). -/

namespace Sys2Proof

/-- `CH`, the channel count (`00_scope.md` R7). -/
def channels : Nat := 2

/-- `RAWLEN`, the raw buffer length in bytes (`00_scope.md` R7). -/
def Params.rawLen (p : Params) : Nat := 2 * p.frames * p.ratio

/-- `OUTLEN`, the number of words of the output buffer (`00_scope.md` R7). -/
def Params.outLen (p : Params) : Nat := p.frames * channels

/-- `2*RATIO`, the bytes of one frame (`20_memory.md` R51). -/
def Params.frameLen (p : Params) : Nat := 2 * p.ratio

/-- The byte at position `pos` is the last of its frame (`40_invocation.md` R102). -/
def Params.endsFrame (p : Params) (pos : Nat) : Bool := pos % p.frameLen == p.frameLen - 1

/-- `D`, the scale divisor of the magnitude unit (`00_scope.md` R7). -/
def Params.scale (p : Params) : Nat := 255 * p.ratio

/-- The least `k` with `x <= 2^k`. -/
def ceilLog2 (x : Nat) : Nat := if x ≤ 1 then 0 else (x - 1).log2 + 1

/-- `W_S`, the width of a component sum (`00_scope.md` R7). -/
def Params.sumWidth (p : Params) : Nat := 1 + ceilLog2 (p.scale + 1)

/-- `W_E`, the width of an energy (`00_scope.md` R7). -/
def Params.energyWidth (p : Params) : Nat := ceilLog2 (2 * p.scale ^ 2 + 1)

/-- `c(v) = 2*v - 255`, the integer code of one raw sample (`30_encoding.md` R72). -/
def sampleCode (v : Byte) : Int := 2 * (v.toNat : Int) - 255

namespace Machine

/-- `ONE32`, the pattern of 1.0 (`00_scope.md` R13). -/
def one32 : Word := 0x3F800000

/-- `ZERO32`, the pattern of +0.0 (`00_scope.md` R13). -/
def zero32 : Word := 0x00000000

/-- The two bits of a routing mode (`10_state.md` R22). -/
def Route.code : Route → BitVec 2
  | .both => 0b00
  | .left => 0b01
  | .right => 0b10

/-- The routing mode after a write of two bits: `11` is reserved and leaves the old mode (`44_control.md` R191). -/
def Route.write (old : Route) (bits : BitVec 2) : Route :=
  if bits = 0b00 then .both else if bits = 0b01 then .left else if bits = 0b10 then .right else old

/-- The two bits of a phase in `STATUS[5:4]` (`10_state.md` R23). -/
def Phase.code : Phase → BitVec 2
  | .idle => 0b00
  | .collect => 0b01
  | .sink => 0b10

/-- `snk_data` of a frame: Left in bits 31:0, Right in bits 63:32 (`30_encoding.md` R73). -/
def Frame.word (f : Frame) : BitVec 64 := f.right ++ f.left

/-- `Route(mode, a)`: the slot not selected is written with `ZERO32` (`43_formatter.md` R161). -/
def Route.frame (mode : Route) (a : Word) : Frame :=
  match mode with
  | .both => { left := a, right := a }
  | .left => { left := a, right := zero32 }
  | .right => { left := zero32, right := a }

end Machine

end Sys2Proof
end

