-- ==== Sys2Proof/Machine/Magnitude.lean ====
section
/-! DEFINITION. The complex-magnitude unit (`42_magnitude.md`): the energy and its one rounding to binary32, on integers
only. -/

namespace Sys2Proof.Machine

/-- `Energy(S_I, S_Q)`, never negative (`42_magnitude.md` R140). -/
def energy (sI sQ : Int) : Nat := (sI * sI + sQ * sQ).toNat

/-- The bits `k-1` to `0` of an integer square root, highest first, above the part `r` already found. -/
def isqrtFrom (x : Nat) : Nat → Nat → Nat
  | 0, r => r
  | k + 1, r => if (r + 2 ^ k) * (r + 2 ^ k) ≤ x then isqrtFrom x k (r + 2 ^ k) else isqrtFrom x k r

/-- `isqrt(x)`, the largest `r` with `r*r <= x` (`00_scope.md` R10). -/
def isqrt (x : Nat) : Nat := isqrtFrom x (x.log2 / 2 + 1) 0

/-- The loop of step 1 of `MagBits`: counts `-e` up from `k` until `D*D <= E * 4^(-e)`, at most `fuel` times
(`42_magnitude.md` R142). -/
def exponentFrom (e dd : Nat) : Nat → Nat → Nat
  | 0, k => k
  | fuel + 1, k => if e * 4 ^ k < dd then exponentFrom e dd fuel (k + 1) else k

/-- `-e` of step 1 of `MagBits`. The bound on the loop is never reached for `E > 0`: `4^(log2(D*D)/2 + 1) > D*D`. -/
def negExponent (e dd : Nat) : Nat := exponentFrom e dd (dd.log2 / 2 + 1) 0

/-- The pattern with sign 0, the exponent `e` biased by 127 and the significand `m`: the last step of `MagBits`
(`42_magnitude.md` R142). -/
def packBinary32 (e : Int) (m : Nat) : Word := BitVec.ofInt 32 (e + 127) <<< 23 ||| BitVec.ofNat 32 (m - 2 ^ 23)

/-- Step 3 of `MagBits`: the truncated significand `m` of `t`, rounded to nearest with ties to even, where
`4*num` is compared with `(2*m+1)^2 * den` (`42_magnitude.md` R142). -/
def roundSignificand (m num den : Nat) : Nat :=
  if (2 * m + 1) ^ 2 * den < 4 * num ∨ ((2 * m + 1) ^ 2 * den = 4 * num ∧ m % 2 = 1) then m + 1 else m

/-- `MagBits(E) = RNE32(sqrt(E)/D)` for the divisor `d`, the integer algorithm of `42_magnitude.md` R142. -/
def magBits (d e : Nat) : Word :=
  if e = 0 then zero32
  else
    let k := negExponent e (d * d)
    let s := 23 + k
    let num := e * 4 ^ s
    let den := d * d
    let m := roundSignificand (isqrt (num / den)) num den
    if m = 2 ^ 24 then packBinary32 (1 - (k : Int)) (2 ^ 23) else packBinary32 (-(k : Int)) m

end Sys2Proof.Machine
end

