-- ==== Sys2Proof/Machine/Flags.lean ====
section
/-! DEFINITION. The status bits, the register words made of fields, write-one-to-clear, and the outputs that are functions
of the state (`10_state.md` R22, R23, R38; `44_control.md` R191 to R195). -/

namespace Sys2Proof.Machine

/-- `BUSY`, 1 when `phase != IDLE` (`10_state.md` R23). -/
def Block.busy (b : Block) : Bool := b.phase != .idle

/-- `iq_ready = (phase != SINK)` (`10_state.md` R38). -/
def Block.iqReady (b : Block) : Bool := b.phase != .sink

/-- `snk_valid = (phase = SINK)` (`10_state.md` R38). -/
def Block.snkValid (b : Block) : Bool := b.phase == .sink

/-- `snk_data`, the frame `w` as a port word (`10_state.md` R38). It is nothing where `OUTBUF` has no frame `w`, which
no reachable sink phase meets (log 10). -/
def Block.snkData (b : Block) : Option (BitVec 64) := (b.outbuf[b.w]?).map Frame.word

/-- `src_abort = CANCEL` (`10_state.md` R38). -/
def Block.srcAbort (b : Block) : Bool := b.cancel

/-- The word of `CTRL`: `zext_32({CLAMP, ROUTE})` (`44_control.md` R192). -/
def Block.ctrlWord (b : Block) : Word := (BitVec.ofBool b.clamp ++ b.route.code).setWidth 32

/-- The word of `STATUS`: `zext_32({PHASE, SINK_ERR, LEN_ERR, BUSY, CANCEL})` (`44_control.md` R195). -/
def Block.statusWord (b : Block) : Word :=
  ((((b.phase.code ++ BitVec.ofBool b.sinkErr) ++ BitVec.ofBool b.lenErr) ++ BitVec.ofBool b.busy) ++
    BitVec.ofBool b.cancel).setWidth 32

/-- A write of `CTRL`: `ROUTE` from bits 1:0 (WARL), `CLAMP` from bit 2 (`44_control.md` R191). -/
def Block.writeCtrl (b : Block) (d : Word) : Block :=
  { b with route := b.route.write (d.extractLsb' 0 2), clamp := d.getLsbD 2 }

/-- A write of `STATUS`: bit 2 clears `LEN_ERR`, bit 3 clears `SINK_ERR` (`44_control.md` R193). -/
def Block.writeStatus (b : Block) (d : Word) : Block :=
  { b with lenErr := b.lenErr && !d.getLsbD 2, sinkErr := b.sinkErr && !d.getLsbD 3 }

/-- A write of `SHUTDOWN`: bit 0 sets `CANCEL` (`44_control.md` R194). -/
def Block.writeShutdown (b : Block) (d : Word) : Block := { b with cancel := b.cancel || d.getLsbD 0 }

/-- The event of a wrong length: the sticky bit is set and nothing is saved (`60_exceptions.md` R221, R224). -/
def Block.raiseLenErr (b : Block) : Block := { b with lenErr := true }

/-- The event of a sink error: the sticky bit is set and nothing is saved (`60_exceptions.md` R221, R224). -/
def Block.raiseSinkErr (b : Block) : Block := { b with sinkErr := true }

end Sys2Proof.Machine
end

