-- ==== Sys2Proof/Machine/Ops.lean ====
section
/-! DEFINITION. The shared operations: the internal steps of the Engine (`40_invocation.md`, `41_decimation.md`,
`43_formatter.md`), answering the Host, and delivering a frame to the Sink. The block takes no trap and has no return from
one (`60_exceptions.md` R224, R225): an event sets a sticky bit, by `Block.raiseLenErr` and `Block.raiseSinkErr`. -/

namespace Sys2Proof.Machine

/-- `StartInvocation`, the top of an invocation (`40_invocation.md` R101). -/
def Block.startInvocation (b : Block) : Block :=
  { b with
    invCancel := b.cancel
    invRoute := b.route
    invClamp := b.clamp
    n := 0
    overLen := false
    accI := 0
    accQ := 0
    emax := 0 }

/-- `if phase == IDLE: StartInvocation()`, the first line of both beats (`40_invocation.md` R102, R104; log 9). -/
def Block.startIfIdle (b : Block) : Block := if b.phase = .idle then b.startInvocation else b

/-- `Accumulate(p, v)`: even positions are I samples, odd positions Q samples (`41_decimation.md` R122). -/
def Block.accumulate (b : Block) (p : Nat) (v : Byte) : Block :=
  if p % 2 = 0 then { b with accI := b.accI + sampleCode v } else { b with accQ := b.accQ + sampleCode v }

/-- `Sample(E, clamp)` for the divisor `d` (`43_formatter.md` R162). -/
def sample (d e : Nat) (clamp : Bool) : Word :=
  if clamp = true ∧ one32 < magBits d e then one32 else magBits d e

/-- `PeakUpdate(E)` (`43_formatter.md` R163). -/
def Block.peakUpdate (b : Block) (e : Nat) : Block := { b with emax := max b.emax e }

/-- `CompleteFrame(j)`: the energy, the peak, the frame, and the accumulators cleared (`41_decimation.md` R123). -/
def Block.completeFrame (p : Params) (b : Block) (j : Nat) : Block :=
  { b.peakUpdate (energy b.accI b.accQ) with
    outbuf := b.outbuf.set j (b.invRoute.frame (sample p.scale (energy b.accI b.accQ) b.invClamp))
    accI := 0
    accQ := 0 }

/-- The part of `DataBeat` for a byte within the buffer's length: `Accumulate`, then `CompleteFrame` at the end of a
frame, then the count (`40_invocation.md` R102). -/
def Block.useByte (p : Params) (b : Block) (v : Byte) : Block :=
  if p.endsFrame b.n then
    { (b.accumulate b.n v).completeFrame p (b.n / p.frameLen) with n := b.n + 1 }
  else { b.accumulate b.n v with n := b.n + 1 }

/-- `DataBeat(v)` (`40_invocation.md` R102); an excess byte only sets `over` (`41_decimation.md` R124), and a byte of a
cancelled invocation is discarded (`40_invocation.md` R103). -/
def Block.dataBeat (p : Params) (b : Block) (v : Byte) : Block :=
  if b.invCancel then b
  else if b.n < p.rawLen then b.useByte p v
  else { b with overLen := true }

/-- The end of a buffer: cancellation is checked before the length (`40_invocation.md` R103 to R106; `60_exceptions.md`
R223 (a)). -/
def Block.endBuffer (p : Params) (b : Block) : Block :=
  if b.invCancel then { b with phase := .idle }
  else if b.overLen = true ∨ b.n ≠ p.rawLen then { b.raiseLenErr with phase := .idle }
  else { b with w := 0, phase := .sink }

/-- `EndSink(acc)` (`43_formatter.md` R166). -/
def Block.endSink (p : Params) (b : Block) (acc : Nat) : Block :=
  { b with
    lastAcc := BitVec.ofNat 32 acc
    peak := magBits p.scale b.emax
    doneCnt := b.doneCnt + 1
    phase := .idle }

/-- The effect of `SNK_ACCEPT` on the block: the next frame, or the end of the sink phase (`43_formatter.md` R164). -/
def Block.acceptFrame (p : Params) (b : Block) : Block :=
  if b.w + 1 = p.frames then { b with w := b.w + 1 }.endSink p p.frames else { b with w := b.w + 1 }

/-- The machine with another block. -/
def State.withBlock (s : State) (b : Block) : State := { s with block := b }

/-- A control-port read: the Host is answered `v` on `ctl_rdata` and the block does not change (`20_memory.md` R57,
`44_control.md` R190). -/
def State.answer (s : State) (v : Word) : State := { s with env := { s.env with hostGot := s.env.hostGot ++ [v] } }

/-- The frame offered now is delivered to the Sink (`43_formatter.md` R164). -/
def State.deliver (s : State) : State :=
  { s with env := { s.env with sinkGot := s.env.sinkGot ++ s.block.snkData.toList } }

end Sys2Proof.Machine
end

