-- ==== Sys2Proof/Machine/Control.lean ====
section
/-! DEFINITION. The control-port operations (`44_control.md`). Every request completes in one step in every phase (R190);
the address bits that only select the row and the data of a read have no effect (`30_encoding.md` R75). -/

namespace Sys2Proof.Machine

/-- `CTL_RD_CTRL` (`44_control.md` R192). -/
def execCtlRdCtrl (s : State) : Host.Outcome State Fault Refusal := .next (s.answer s.block.ctrlWord)

/-- `CTL_WR_CTRL` (`44_control.md` R191). -/
def execCtlWrCtrl (d : Word) (s : State) : Host.Outcome State Fault Refusal :=
  .next (s.withBlock (s.block.writeCtrl d))

/-- `CTL_RD_STATUS` (`44_control.md` R195). -/
def execCtlRdStatus (s : State) : Host.Outcome State Fault Refusal := .next (s.answer s.block.statusWord)

/-- `CTL_WR_STATUS` (`44_control.md` R193). -/
def execCtlWrStatus (d : Word) (s : State) : Host.Outcome State Fault Refusal :=
  .next (s.withBlock (s.block.writeStatus d))

/-- `CTL_RD_SHUTDOWN`: 0 whatever `CANCEL` holds (`44_control.md` R199). -/
def execCtlRdShutdown (s : State) : Host.Outcome State Fault Refusal := .next (s.answer 0)

/-- `CTL_WR_SHUTDOWN` (`44_control.md` R194). -/
def execCtlWrShutdown (d : Word) (s : State) : Host.Outcome State Fault Refusal :=
  .next (s.withBlock (s.block.writeShutdown d))

/-- `CTL_RD_PEAK` (`44_control.md` R200). -/
def execCtlRdPeak (s : State) : Host.Outcome State Fault Refusal := .next (s.answer s.block.peak)

/-- `CTL_WR_PEAK`: ignored (`44_control.md` R196). -/
def execCtlWrPeak (s : State) : Host.Outcome State Fault Refusal := .next s

/-- `CTL_RD_DONE_CNT` (`44_control.md` R201). -/
def execCtlRdDoneCnt (s : State) : Host.Outcome State Fault Refusal := .next (s.answer s.block.doneCnt)

/-- `CTL_WR_DONE_CNT`: ignored (`44_control.md` R196). -/
def execCtlWrDoneCnt (s : State) : Host.Outcome State Fault Refusal := .next s

/-- `CTL_RD_LAST_ACC` (`44_control.md` R202). -/
def execCtlRdLastAcc (s : State) : Host.Outcome State Fault Refusal := .next (s.answer s.block.lastAcc)

/-- `CTL_WR_LAST_ACC`: ignored (`44_control.md` R196). -/
def execCtlWrLastAcc (s : State) : Host.Outcome State Fault Refusal := .next s

/-- `CTL_RD_CFG_RATIO`: `zext_32(RATIO)` (`44_control.md` R203). -/
def execCtlRdCfgRatio (s : State) : Host.Outcome State Fault Refusal :=
  .next (s.answer (BitVec.ofNat 32 s.cfg.ratio))

/-- `CTL_WR_CFG_RATIO`: ignored (`44_control.md` R196). -/
def execCtlWrCfgRatio (s : State) : Host.Outcome State Fault Refusal := .next s

/-- `CTL_RD_CFG_FRAMES`: `zext_32(FRAMES)` (`44_control.md` R204). -/
def execCtlRdCfgFrames (s : State) : Host.Outcome State Fault Refusal :=
  .next (s.answer (BitVec.ofNat 32 s.cfg.frames))

/-- `CTL_WR_CFG_FRAMES`: ignored (`44_control.md` R196). -/
def execCtlWrCfgFrames (s : State) : Host.Outcome State Fault Refusal := .next s

/-- `CTL_RD_RSVD_20`: reads 0 (`44_control.md` R198). -/
def execCtlRdRsvd20 (s : State) : Host.Outcome State Fault Refusal := .next (s.answer 0)

/-- `CTL_RD_RSVD_40`: reads 0 (`44_control.md` R198). -/
def execCtlRdRsvd40 (s : State) : Host.Outcome State Fault Refusal := .next (s.answer 0)

/-- `CTL_RD_RSVD_80`: reads 0 (`44_control.md` R198). -/
def execCtlRdRsvd80 (s : State) : Host.Outcome State Fault Refusal := .next (s.answer 0)

/-- `CTL_WR_RSVD_20`: ignored (`44_control.md` R197). -/
def execCtlWrRsvd20 (s : State) : Host.Outcome State Fault Refusal := .next s

/-- `CTL_WR_RSVD_40`: ignored (`44_control.md` R197). -/
def execCtlWrRsvd40 (s : State) : Host.Outcome State Fault Refusal := .next s

/-- `CTL_WR_RSVD_80`: ignored (`44_control.md` R197). -/
def execCtlWrRsvd80 (s : State) : Host.Outcome State Fault Refusal := .next s

end Sys2Proof.Machine
end

