-- ==== Sys2Proof/Machine/Input.lean ====
section
/-! DEFINITION. The input-stream operations (`40_invocation.md`). -/

namespace Sys2Proof.Machine

/-- `IQ_BEAT v` (`40_invocation.md` R102). In `SINK` the step does not exist and the Source waits
(`00_scope.md` R14; log 3). -/
def execIqBeat (v : Byte) (s : State) : Host.Outcome State Fault Refusal :=
  if s.block.iqReady then
    .next (s.withBlock { s.block.startIfIdle.dataBeat s.cfg v with phase := .collect })
  else .next s

/-- `IQ_BEAT_LAST v` (`40_invocation.md` R104). In `SINK` the step does not exist and the Source waits
(`00_scope.md` R14; log 3). -/
def execIqBeatLast (v : Byte) (s : State) : Host.Outcome State Fault Refusal :=
  if s.block.iqReady then
    .next (s.withBlock ((s.block.startIfIdle.dataBeat s.cfg v).endBuffer s.cfg))
  else .next s

end Sys2Proof.Machine
end

