-- ==== Sys2Proof/Machine/Reset.lean ====
section
/-! DEFINITION. The reset operation (`70_reset_and_hazards.md`). -/

namespace Sys2Proof.Machine

/-- `RST`: every field of the block to its reset value, in every state (`70_reset_and_hazards.md` R240). The parameters
do not change (`10_state.md` R37) and the agents are not the block's state (log 12). -/
def execRst (s : State) : Host.Outcome State Fault Refusal := .next (s.withBlock (Block.reset s.cfg))

end Sys2Proof.Machine
end

