-- ==== Sys2Proof/Machine/Sink.lean ====
section
/-! DEFINITION. The Sink's operations (`43_formatter.md`). Outside the sink phase no response exists (`30_encoding.md`
R74), so a Sink that would answer waits and nothing changes (log 3). -/

namespace Sys2Proof.Machine

/-- `SNK_ACCEPT`: frame `w` is delivered, then the index moves or the sink phase ends (`43_formatter.md` R164). -/
def execSnkAccept (s : State) : Host.Outcome State Fault Refusal :=
  if s.block.snkValid then .next (s.deliver.withBlock (s.block.acceptFrame s.cfg)) else .next s

/-- `SNK_ERROR`: frame `w` and the later ones are never delivered (`43_formatter.md` R165). -/
def execSnkError (s : State) : Host.Outcome State Fault Refusal :=
  if s.block.snkValid then .next (s.withBlock (s.block.raiseSinkErr.endSink s.cfg s.block.w)) else .next s

end Sys2Proof.Machine
end

