-- ==== Sys2Proof/Machine/Dispatch.lean ====
section
/-! DEFINITION. One arm per operation, each one call of its meaning. -/

namespace Sys2Proof.Machine

/-- The effect of an operation. An operation that its port does not take now leaves everything as it is (log 3). -/
def exec (i : Instr) (s : State) : Host.Outcome State Fault Refusal :=
  match i with
  | .ctlRdCtrl _ _ => Sys2Proof.Machine.execCtlRdCtrl s
  | .ctlWrCtrl _ d => Sys2Proof.Machine.execCtlWrCtrl d s
  | .ctlRdStatus _ _ => Sys2Proof.Machine.execCtlRdStatus s
  | .ctlWrStatus _ d => Sys2Proof.Machine.execCtlWrStatus d s
  | .ctlRdShutdown _ _ => Sys2Proof.Machine.execCtlRdShutdown s
  | .ctlWrShutdown _ d => Sys2Proof.Machine.execCtlWrShutdown d s
  | .ctlRdPeak _ _ => Sys2Proof.Machine.execCtlRdPeak s
  | .ctlWrPeak _ _ => Sys2Proof.Machine.execCtlWrPeak s
  | .ctlRdDoneCnt _ _ => Sys2Proof.Machine.execCtlRdDoneCnt s
  | .ctlWrDoneCnt _ _ => Sys2Proof.Machine.execCtlWrDoneCnt s
  | .ctlRdLastAcc _ _ => Sys2Proof.Machine.execCtlRdLastAcc s
  | .ctlWrLastAcc _ _ => Sys2Proof.Machine.execCtlWrLastAcc s
  | .ctlRdCfgRatio _ _ => Sys2Proof.Machine.execCtlRdCfgRatio s
  | .ctlWrCfgRatio _ _ => Sys2Proof.Machine.execCtlWrCfgRatio s
  | .ctlRdCfgFrames _ _ => Sys2Proof.Machine.execCtlRdCfgFrames s
  | .ctlWrCfgFrames _ _ => Sys2Proof.Machine.execCtlWrCfgFrames s
  | .ctlRdRsvd20 _ _ => Sys2Proof.Machine.execCtlRdRsvd20 s
  | .ctlRdRsvd40 _ _ => Sys2Proof.Machine.execCtlRdRsvd40 s
  | .ctlRdRsvd80 _ _ => Sys2Proof.Machine.execCtlRdRsvd80 s
  | .ctlWrRsvd20 _ _ => Sys2Proof.Machine.execCtlWrRsvd20 s
  | .ctlWrRsvd40 _ _ => Sys2Proof.Machine.execCtlWrRsvd40 s
  | .ctlWrRsvd80 _ _ => Sys2Proof.Machine.execCtlWrRsvd80 s
  | .iqBeat v => Sys2Proof.Machine.execIqBeat v s
  | .iqBeatLast v => Sys2Proof.Machine.execIqBeatLast v s
  | .snkAccept => Sys2Proof.Machine.execSnkAccept s
  | .snkError _ => Sys2Proof.Machine.execSnkError s
  | .rst => Sys2Proof.Machine.execRst s

end Sys2Proof.Machine
end

