-- ==== Sys2Proof/Machine/Ports.lean ====
section
/-! DEFINITION. What the agents have on the ports: the word offered next on a port, whether the block takes words from it
now, and the word leaving once it is taken. -/

namespace Sys2Proof.Machine

/-- The word the agent of a port offers next. -/
def Env.offered (e : Env) : Port → Option Offer
  | .ctl => e.ctlIn.head?.map .ctl
  | .iq => e.iqIn.head?.map .iq
  | .snk => e.snkIn.head?.map .snk
  | .rst => e.rstIn.head?.map .rst

/-- The word offered on a port is taken: the agent goes on to its next one. -/
def Env.taken (e : Env) : Port → Env
  | .ctl => { e with ctlIn := e.ctlIn.tail }
  | .iq => { e with iqIn := e.iqIn.tail }
  | .snk => { e with snkIn := e.snkIn.tail }
  | .rst => { e with rstIn := e.rstIn.tail }

/-- An agent puts a word in front of what it offers on its port. -/
def Env.offer (e : Env) : Offer → Env
  | .ctl r => { e with ctlIn := r :: e.ctlIn }
  | .iq b => { e with iqIn := b :: e.iqIn }
  | .snk r => { e with snkIn := r :: e.snkIn }
  | .rst l => { e with rstIn := l :: e.rstIn }

/-- The enabling condition of a port's operations: `iq_ready` for a beat (`40_invocation.md` R102), `snk_valid` for a
response (`43_formatter.md` R164), none for a control request (`44_control.md` R190) or reset
(`70_reset_and_hazards.md` R240). -/
def Block.ready (b : Block) : Port → Bool
  | .iq => b.iqReady
  | .snk => b.snkValid
  | .ctl => true
  | .rst => true

/-- The turn that comes next has begun, and the later turns are left. -/
def State.turn (s : State) (later : List Port) : State := { s with env := { s.env with turns := later } }

/-- The word offered on a port is taken. -/
def State.take (s : State) (p : Port) : State := { s with env := s.env.taken p }

/-- The word offered on a port is taken when the port is ready, and stays offered otherwise (`00_scope.md` R14). -/
def State.takeIfReady (s : State) (p : Port) : State := if s.block.ready p then s.take p else s

end Sys2Proof.Machine
end

