-- ==== Sys2Proof/Machine/Step.lean ====
section
/-! DEFINITION. One step of the machine: the agent whose turn it is offers its next word, and the block takes it if the
port is ready (`00_scope.md` R9, R14). -/

namespace Sys2Proof.Machine

/-- One step. With no turn left no agent acts, and the machine stays as it is (log 4). An agent with nothing to offer,
or whose word is the absence of an operation, lets its turn pass. Otherwise the word is decoded and its operation runs;
where the port is not ready the word stays offered and the operation leaves everything as it is (log 3). -/
def step (s : State) : Host.Outcome State Fault Refusal :=
  match s.env.turns with
  | [] => .next s
  | p :: later =>
    match s.env.offered p with
    | none => .next (s.turn later)
    | some o =>
      match decode o with
      | .noOperation _ => .next ((s.turn later).take p)
      | .operation i => exec i ((s.turn later).takeIfReady p)

/-- The state in which the table's word is what the next step takes: it stands first on its port, and that port moves
next (log 6, log 7). Where no port can carry the word nothing changes. -/
def State.withFetchWord (s : State) (nbits w : Nat) : State :=
  match tableOffer nbits w with
  | none => s
  | some o => { s with env := { s.env.offer o with turns := o.port :: s.env.turns } }

end Sys2Proof.Machine
end

