-- ==== Sys2Proof/Safety.lean ====
section
/-! DEFINITION. The terms the statements use: the invariants of the block, runs of operations, the mathematical values a
buffer stands for (`41_decimation.md` R121), the value of a binary32 pattern and the nearest one (`00_scope.md` R13). -/

namespace Sys2Proof

/-- The I samples of the current frame used so far, from the count of bytes used (`41_decimation.md` R125 (b)). -/
def Params.iTaken (p : Params) (n : Nat) : Nat := (n % p.frameLen + 1) / 2

/-- The Q samples of the current frame used so far. -/
def Params.qTaken (p : Params) (n : Nat) : Nat := n % p.frameLen / 2

/-- `S_I(j)` of a buffer: the sum of the codes at the even positions of frame `j` (`41_decimation.md` R121). -/
def sumI (p : Params) (bytes : List Byte) (j : Nat) : Int :=
  ((List.range p.ratio).map fun k => sampleCode (bytes.getD (2 * p.ratio * j + 2 * k) 0)).sum

/-- `S_Q(j)` of a buffer: the sum of the codes at the odd positions of frame `j` (`41_decimation.md` R121). -/
def sumQ (p : Params) (bytes : List Byte) (j : Nat) : Int :=
  ((List.range p.ratio).map fun k => sampleCode (bytes.getD (2 * p.ratio * j + 2 * k + 1) 0)).sum

/-- `E(j) = S_I(j)^2 + S_Q(j)^2` of a buffer (`40_invocation.md` R108). -/
def bufferEnergy (p : Params) (bytes : List Byte) (j : Nat) : Nat :=
  (sumI p bytes j ^ 2 + sumQ p bytes j ^ 2).toNat

/-- The value of a non-negative binary32 pattern in units of `2^-149`: biased exponent in bits 30:23, fraction in bits
22:0, subnormal where the exponent field is 0 (`00_scope.md` R13; PRESUMED from IEEE 754, log 13). -/
def binary32Units (b : Word) : Nat :=
  if (b.extractLsb' 23 8).toNat = 0 then (b.extractLsb' 0 23).toNat
  else (2 ^ 23 + (b.extractLsb' 0 23).toNat) * 2 ^ ((b.extractLsb' 23 8).toNat - 1)

/-- The real value of a non-negative finite binary32 pattern (`00_scope.md` R13). -/
noncomputable def binary32Value (b : Word) : ℝ := (binary32Units b : ℝ) / 2 ^ 149

/-- `b = RNE32(x)`: a finite pattern nearest to `x`, and at a tie the one with the even significand
(`00_scope.md` R13). -/
def IsNearestEven (x : ℝ) (b : Word) : Prop :=
  b.toNat < 0x7F800000 ∧
    ∀ c : Word, c.toNat < 0x7F800000 → c ≠ b →
      |x - binary32Value b| ≤ |x - binary32Value c| ∧
        (|x - binary32Value b| = |x - binary32Value c| → b.toNat % 2 = 0)

namespace Machine

/-- `0x3FB504F3`, the largest sample the block produces (`42_magnitude.md` R143 (c)). -/
def maxSample : Word := 0x3FB504F3

/-- The counts and the sequencer stay within what `10_state.md` R29, R30, R32, R35 and R36 give them. -/
structure Block.Shape (p : Params) (b : Block) : Prop where
  /-- `OUTBUF` keeps its `FRAMES` frames (R36). -/
  outbuf_length : b.outbuf.length = p.frames
  /-- `n` lies in `[0, RAWLEN]` (R32). -/
  n_le : b.n ≤ p.rawLen
  /-- `over` is 1 only beyond the `RAWLEN`-th byte (R32). -/
  over_full : b.overLen = true → b.n = p.rawLen
  /-- `w` lies in `[0, FRAMES]` (R35). -/
  w_le : b.w ≤ p.frames
  /-- `LAST_ACC` lies in `[0, FRAMES]` (R29). -/
  lastAcc_le : b.lastAcc.toNat ≤ p.frames
  /-- In `COLLECT` a buffer that is not cancelled has used a byte (R30). -/
  collect_used : b.phase = .collect → b.invCancel = false → 1 ≤ b.n
  /-- `SINK` holds only for a valid buffer with frames still to go (R30; `43_formatter.md` R164). -/
  sink_valid : b.phase = .sink → b.w < p.frames ∧ b.n = p.rawLen ∧ b.overLen = false ∧ b.invCancel = false
  /-- A cancelled invocation uses no byte (`40_invocation.md` R103). -/
  cancelled_unused : b.invCancel = true → b.n = 0

/-- The running sums obey `41_decimation.md` R125 (b): after `m` samples, `|s| <= 255*m` and `s ≡ m (mod 2)`. -/
structure Block.Sums (p : Params) (b : Block) : Prop where
  /-- The bound on `accI`. -/
  accI_le : |b.accI| ≤ 255 * (p.iTaken b.n : Int)
  /-- The bound on `accQ`. -/
  accQ_le : |b.accQ| ≤ 255 * (p.qTaken b.n : Int)
  /-- The parity of `accI`. -/
  accI_parity : b.accI % 2 = (p.iTaken b.n : Int) % 2
  /-- The parity of `accQ`. -/
  accQ_parity : b.accQ % 2 = (p.qTaken b.n : Int) % 2

/-- The routing laws of `43_formatter.md` R168 and the range of R170 for one frame of an invocation with these
snapshots. -/
structure Frame.Obeys (route : Route) (clamp : Bool) (f : Frame) : Prop where
  /-- Under Left, slot 1 is `ZERO32`. -/
  left_silent : route = .left → f.right = zero32
  /-- Under Right, slot 0 is `ZERO32`. -/
  right_silent : route = .right → f.left = zero32
  /-- Under Both, slot 0 equals slot 1. -/
  both_equal : route = .both → f.left = f.right
  /-- Without the clamp, both slots lie in `[0, 0x3FB504F3]`. -/
  range : f.left ≤ maxSample ∧ f.right ≤ maxSample
  /-- With the clamp, both slots lie in `[0, 0x3F800000]`. -/
  clamped : clamp = true → f.left ≤ one32 ∧ f.right ≤ one32

/-- The values the block holds stay in range: `emax` within `W_E` bits (`10_state.md` R34), `PEAK` (R27), and the frames
this invocation has completed (`43_formatter.md` R168, R170). -/
structure Block.Values (p : Params) (b : Block) : Prop where
  /-- No energy exceeds `2*D^2` (`42_magnitude.md` R140). -/
  emax_le : b.emax ≤ 2 * p.scale ^ 2
  /-- `PEAK` lies in `[0, 0x3FB504F3]` (`10_state.md` R27). -/
  peak_le : b.peak ≤ maxSample
  /-- Every completed frame of the current invocation obeys its snapshots. -/
  frames_obey : ∀ j f, j < b.n / p.frameLen → b.outbuf[j]? = some f → f.Obeys b.invRoute b.invClamp

/-- The parameters are legal and the shape holds. -/
def State.ShapeInv (s : State) : Prop := s.cfg.legal = true ∧ s.block.Shape s.cfg

/-- The parameters are legal and the running sums obey their law. -/
def State.SumsInv (s : State) : Prop := s.cfg.legal = true ∧ s.block.Sums s.cfg

/-- The parameters are legal, the running sums obey their law and the values are in range. -/
def State.ValuesInv (s : State) : Prop := s.cfg.legal = true ∧ s.block.Sums s.cfg ∧ s.block.Values s.cfg

/-- The operations of a list, one after the other, in the order the agents' steps fall (`20_memory.md` R60). -/
def runOps : List Instr → State → Host.Outcome State Fault Refusal
  | [], s => .next s
  | i :: later, s =>
    match exec i s with
    | .next t => runOps later t
    | .fault r => .fault r
    | .refused r => .refused r

/-- The byte of a beat that is not a buffer's last. -/
def beatByte : Instr → Option Byte
  | .iqBeat v => some v
  | _ => none

/-- The operations between a buffer's first beat and its last: more beats, and whatever the Host asks for
(`40_invocation.md` R108). -/
def WithinBuffer (ops : List Instr) : Prop := ∀ i ∈ ops, i.port = .ctl ∨ ∃ v, i = .iqBeat v

/-- The operations that bring a whole buffer, one step each: they begin with its first beat and end with its last
(`40_invocation.md` R108). -/
inductive BringsBuffer : List Byte → List Instr → Prop where
  /-- A buffer of one byte. -/
  | single (v : Byte) : BringsBuffer [v] [.iqBeatLast v]
  /-- A buffer of several bytes, the Host's requests anywhere between its beats. -/
  | several (first last : Byte) (between : List Instr) (h : WithinBuffer between) :
      BringsBuffer (first :: (between.filterMap beatByte ++ [last]))
        (.iqBeat first :: (between ++ [.iqBeatLast last]))

/-- The Host's requests among some operations. -/
def hostOps (ops : List Instr) : List Instr := ops.filter fun i => i.port == .ctl

/-- An ended sink phase: the frames of its invocation and how many of them the Sink accepted. -/
structure Served where
  /-- All frames of the invocation, as port words. -/
  frames : List (BitVec 64)
  /-- The invocation's `LAST_ACC`; where reset abandons it, the frames accepted until then
  (`70_reset_and_hazards.md` R240). -/
  accepted : Nat
  deriving DecidableEq, Repr

/-- The sink phases that end along a list of operations, in order, one that reset ends among them (`43_formatter.md`
R169). -/
def servedAlong : List Instr → State → List Served
  | [], _ => []
  | i :: later, s =>
    match exec i s with
    | .next t =>
      (if s.block.phase = .sink ∧ t.block.phase = .idle then
        [{ frames := s.block.outbuf.map Frame.word
           accepted := if i = .rst then s.block.w else t.block.lastAcc.toNat }]
      else []) ++ servedAlong later t
    | .fault _ => []
    | .refused _ => []

/-- The frames of the sink phase in progress that the Sink has accepted. -/
def Block.acceptedSoFar (b : Block) : List (BitVec 64) :=
  if b.phase = .sink then (b.outbuf.map Frame.word).take b.w else []

end Machine

end Sys2Proof
end

