-- ==== Sys2Proof/Certificates/Slice0/Obligations.lean ====
section
/-! DEFINITION. The statements for the provers, each from a rule of `spec/`. Every statement about the block ranges over
the parameters a state was elaborated with, not only the reference ones. -/

section

open Sys2Proof Sys2Proof.Machine

/-! ### Encodings -/

/-- `30_encoding.md` R79, R81: no bit of any operation's encoding is dropped by the decoder. -/
def Obligations.WellFormedOperationsDecodeBack : Prop :=
  ∀ i : Instr, i.wellFormed = true → decode (encode i) = .operation i

/-- `30_encoding.md` R79: each word means one well-formed operation, and that operation's encoding is the word. -/
def Obligations.DecodedWordsEncodeBack : Prop :=
  ∀ (o : Offer) (i : Instr), decode o = .operation i → i.wellFormed = true ∧ encode i = o

/-- `30_encoding.md` R79, R81: exactly one row of the operation map covers a word that is an operation, and it is the
decoded operation's row; no row covers the two words that are none. -/
def Obligations.OperationMapHasOneRowPerWord : Prop :=
  ∀ o : Offer,
    match decode o with
    | .operation i =>
      ∃ r ∈ operationMap, r.mnemonic = i.mnemonic ∧ r.port = i.port ∧ r.covers o = true ∧
        ∀ r' ∈ operationMap, r'.covers o = true → r' = r
    | .noOperation _ => (o = .snk 0b00 ∨ o = .rst 0) ∧ ∀ r ∈ operationMap, r.covers o = false

/-- Words written out from `30_encoding.md` R79, one or more of each format (values of `95_test_vectors.md` 2.1). -/
def Obligations.WrittenOutWordsDecode : Prop :=
  decode (.iq 0b0_0111_1111) = .operation (.iqBeat 0x7F) ∧
  decode (.iq 0b1_1000_0000) = .operation (.iqBeatLast 0x80) ∧
  decode (.snk 0b01) = .operation .snkAccept ∧
  decode (.snk 0b10) = .operation (.snkError 0) ∧
  decode (.snk 0b11) = .operation (.snkError 1) ∧
  decode (.rst 0b1) = .operation .rst ∧
  decode (.ctl 0x10000000004) = .operation (.ctlWrCtrl 0 4) ∧
  decode (.ctl 0x00500000000) = .operation (.ctlRdStatus 1 0) ∧
  decode (.ctl 0x10800000001) = .operation (.ctlWrShutdown 0 1) ∧
  decode (.ctl 0x11000000005) = .operation (.ctlWrDoneCnt 0 5) ∧
  decode (.ctl 0x03F00000000) = .operation (.ctlRdRsvd20 0x3F 0) ∧
  decode (.ctl 0x140FFFFFFFF) = .operation (.ctlWrRsvd40 0x40 0xFFFFFFFF) ∧
  decode (.ctl 0x0FC00000000) = .operation (.ctlRdRsvd80 0xFC 0)

/-- `30_encoding.md` R75, `20_memory.md` R54: two requests that differ only in `ADDR[1:0]`, or two reads that differ
also in `WDATA`, have the same effect. -/
def Obligations.IgnoredRequestBitsHaveNoEffect : Prop :=
  ∀ (reg : BitVec 6) (a a' : BitVec 2) (d d' : Word) (s : State),
    exec (decodeCtl (request 1 (namedOffset reg a) d)) s = exec (decodeCtl (request 1 (namedOffset reg a') d)) s ∧
    exec (decodeCtl (request 0 (namedOffset reg a) d)) s = exec (decodeCtl (request 0 (namedOffset reg a') d')) s

/-! ### The step -/

/-- `00_scope.md` R14: the agent whose turn it is offers a word that is the operation `i` on a ready port; the step takes
the word and runs `i`. -/
def Obligations.StepRunsTheDecodedOperation : Prop :=
  ∀ (s : State) (p : Port) (later : List Port) (o : Offer) (i : Instr),
    s.env.turns = p :: later → s.env.offered p = some o → decode o = .operation i → s.block.ready p = true →
      step s = exec i { s with env := { s.env with turns := later }.taken p }

/-- `00_scope.md` R14: where the enabling condition of the offered operation is false, the agent waits: its word stays
offered and nothing but its turn passes (the model's form of a step that does not exist, log 3). -/
def Obligations.OfferOnAPortThatIsNotReadyWaits : Prop :=
  ∀ (s : State) (p : Port) (later : List Port) (o : Offer) (i : Instr),
    s.env.turns = p :: later → s.env.offered p = some o → decode o = .operation i → s.block.ready p = false →
      step s = .next { s with env := { s.env with turns := later } }

/-- `43_formatter.md` R167, `40_invocation.md` R110 (the model's form of a stall, log 4): where no agent acts, its agent
offers nothing, or its word is the absence of an operation, the block keeps all its state. -/
def Obligations.WithoutAnOperationTheBlockStays : Prop :=
  ∀ s : State,
    (s.env.turns = [] → step s = .next s) ∧
    ∀ (p : Port) (later : List Port), s.env.turns = p :: later →
      (s.env.offered p = none → step s = .next { s with env := { s.env with turns := later } }) ∧
      ∀ (o : Offer) (why : NoOperation), s.env.offered p = some o → decode o = .noOperation why →
        step s = .next { s with env := { s.env with turns := later }.taken p }

/-- The word that `State.withFetchWord` places is what the next step decodes and runs, and nothing else has changed
(the model's own loading, log 6, log 7). -/
def Obligations.PlacedTableWordRunsNext : Prop :=
  ∀ (s : State) (nbits w : Nat) (i : Instr), decodeTableWord nbits w = some i → s.block.ready i.port = true →
    step (s.withFetchWord nbits w) = exec i s

/-- `60_exceptions.md` R221, R224 and `10_state.md` R37: no step from any state ends in a fault or a refusal, and the
parameters stay. Where no agent has a turn or the port is not ready the spec has no step (`00_scope.md` R14); that the
model answers a next state there too is its own choice (log 3, log 4), and is no operation that completes. -/
def Obligations.NoStepFaultsAndTheParametersStay : Prop :=
  ∀ s : State, ∃ t, step s = .next t ∧ t.cfg = s.cfg

/-! ### The control port -/

/-- `44_control.md` R192: `rd CTRL` answers `ROUTE` in bits 1:0 (`10_state.md` R22: `00` Both, `01` Left, `10` Right),
`CLAMP` in bit 2 and 0 above, and changes nothing. -/
def Obligations.CtrlReadAnswersItsFields : Prop :=
  ∀ (a : BitVec 2) (d : Word) (s : State), ∃ v : Word,
    exec (.ctlRdCtrl a d) s = .next { s with env := { s.env with hostGot := s.env.hostGot ++ [v] } } ∧
    v.extractLsb' 0 2 = (match s.block.route with | .both => 0b00 | .left => 0b01 | .right => 0b10) ∧
    v.getLsbD 2 = s.block.clamp ∧ v.extractLsb' 3 29 = 0

/-- `44_control.md` R195: `rd STATUS` answers `CANCEL`, `BUSY`, `LEN_ERR`, `SINK_ERR`, `PHASE` and 0 above, and changes
nothing. -/
def Obligations.StatusReadAnswersItsBits : Prop :=
  ∀ (a : BitVec 2) (d : Word) (s : State), ∃ v : Word,
    exec (.ctlRdStatus a d) s = .next { s with env := { s.env with hostGot := s.env.hostGot ++ [v] } } ∧
    v.getLsbD 0 = s.block.cancel ∧ v.getLsbD 1 = decide (s.block.phase ≠ .idle) ∧ v.getLsbD 2 = s.block.lenErr ∧
    v.getLsbD 3 = s.block.sinkErr ∧
    v.extractLsb' 4 2 = (match s.block.phase with | .idle => 0b00 | .collect => 0b01 | .sink => 0b10) ∧
    v.extractLsb' 6 26 = 0

/-- `44_control.md` R198 to R204: the other reads answer the register, or 0, and change nothing. -/
def Obligations.OtherReadsAnswerTheirRegister : Prop :=
  ∀ (a : BitVec 2) (off : Byte) (d : Word) (s : State),
    let answered := fun v : Word =>
      Host.Outcome.next (φ := Fault) (ρ := Refusal)
        { s with env := { s.env with hostGot := s.env.hostGot ++ [v] } }
    exec (.ctlRdShutdown a d) s = answered 0x00000000 ∧
    exec (.ctlRdPeak a d) s = answered s.block.peak ∧
    exec (.ctlRdDoneCnt a d) s = answered s.block.doneCnt ∧
    exec (.ctlRdLastAcc a d) s = answered s.block.lastAcc ∧
    exec (.ctlRdCfgRatio a d) s = answered (BitVec.ofNat 32 s.cfg.ratio) ∧
    exec (.ctlRdCfgFrames a d) s = answered (BitVec.ofNat 32 s.cfg.frames) ∧
    exec (.ctlRdRsvd20 off d) s = answered 0x00000000 ∧
    exec (.ctlRdRsvd40 off d) s = answered 0x00000000 ∧
    exec (.ctlRdRsvd80 off d) s = answered 0x00000000

/-- `44_control.md` R196, R197: writes to read-only registers and reserved offsets change no state. -/
def Obligations.ReadOnlyAndReservedWritesAreIgnored : Prop :=
  ∀ (a : BitVec 2) (off : Byte) (d : Word) (s : State),
    exec (.ctlWrPeak a d) s = .next s ∧ exec (.ctlWrDoneCnt a d) s = .next s ∧
    exec (.ctlWrLastAcc a d) s = .next s ∧ exec (.ctlWrCfgRatio a d) s = .next s ∧
    exec (.ctlWrCfgFrames a d) s = .next s ∧ exec (.ctlWrRsvd20 off d) s = .next s ∧
    exec (.ctlWrRsvd40 off d) s = .next s ∧ exec (.ctlWrRsvd80 off d) s = .next s

/-- `44_control.md` R191: `ROUTE` takes bits 1:0 (`10_state.md` R22: `00` Both, `01` Left, `10` Right) unless they are
the reserved `11`, `CLAMP` takes bit 2, and nothing else changes. -/
def Obligations.CtrlWriteIsWarl : Prop :=
  ∀ (a : BitVec 2) (d : Word) (s : State), ∃ r : Route,
    exec (.ctlWrCtrl a d) s = .next { s with block := { s.block with route := r, clamp := d.getLsbD 2 } } ∧
    (d.extractLsb' 0 2 = 0b00 → r = .both) ∧ (d.extractLsb' 0 2 = 0b01 → r = .left) ∧
    (d.extractLsb' 0 2 = 0b10 → r = .right) ∧ (d.extractLsb' 0 2 = 0b11 → r = s.block.route)

/-- `44_control.md` R193: a 1 in bit 2 clears `LEN_ERR`, a 1 in bit 3 clears `SINK_ERR`, and nothing else changes. -/
def Obligations.StatusWriteClearsWhereOneIsWritten : Prop :=
  ∀ (a : BitVec 2) (d : Word) (s : State),
    exec (.ctlWrStatus a d) s = .next { s with block := { s.block with
      lenErr := if d.getLsbD 2 then false else s.block.lenErr
      sinkErr := if d.getLsbD 3 then false else s.block.sinkErr } }

/-- `44_control.md` R194: bit 0 sets `CANCEL`, nothing else changes, and `src_abort` follows `CANCEL`, before the write as
after it (`10_state.md` R38). -/
def Obligations.ShutdownWriteSetsCancel : Prop :=
  ∀ (a : BitVec 2) (d : Word) (s : State),
    s.block.srcAbort = s.block.cancel ∧
    ∃ t, exec (.ctlWrShutdown a d) s = .next t ∧
      t = { s with block := { s.block with cancel := if d.getLsbD 0 then true else s.block.cancel } } ∧
      t.block.srcAbort = (if d.getLsbD 0 then true else s.block.cancel)

/-- `20_memory.md` R57: a repeated `CTRL` write, `STATUS` clear or `SHUTDOWN` write leaves the state of the first. -/
def Obligations.ControlWritesAreIdempotent : Prop :=
  ∀ (a : BitVec 2) (d : Word) (s t : State) (i : Instr),
    i = .ctlWrCtrl a d ∨ i = .ctlWrStatus a d ∨ i = .ctlWrShutdown a d → exec i s = .next t → exec i t = .next t

/-- `44_control.md` R190, `60_exceptions.md` R226: a control request completes in every state, and never reaches
`OUTBUF`, the datapath, the phase, the snapshots, `PEAK`, the counters or what the Sink has been given. -/
def Obligations.ControlRequestsCompleteAndLeaveTheEngineAlone : Prop :=
  ∀ (i : Instr) (s : State), i.port = .ctl →
    ∃ t, exec i s = .next t ∧ t.cfg = s.cfg ∧
      t.block = { s.block with
        route := t.block.route
        clamp := t.block.clamp
        cancel := t.block.cancel
        lenErr := t.block.lenErr
        sinkErr := t.block.sinkErr } ∧
      t.env = { s.env with hostGot := t.env.hostGot } ∧
      (t.block = s.block ∨ t.env = s.env)

/-! ### The input stream -/

/-- `40_invocation.md` R101: the first beat of a buffer, whether its last too or not, has the effect it would have after
`StartInvocation`. That this holds of a cancelled buffer's first beat too, which then clears `n`, `over`, the sums and
`emax`, follows the pseudocode of R102 and R104 against its prose (log 9). -/
def Obligations.FirstBeatStartsTheInvocation : Prop :=
  ∀ (v : Byte) (s : State), s.block.phase = .idle →
    let started : State := { s with block := { s.block with
      invCancel := s.block.cancel
      invRoute := s.block.route
      invClamp := s.block.clamp
      n := 0
      overLen := false
      accI := 0
      accQ := 0
      emax := 0
      phase := .collect } }
    (∃ t, exec (.iqBeat v) s = .next t ∧ exec (.iqBeat v) started = .next t) ∧
    ∃ t, exec (.iqBeatLast v) s = .next t ∧ exec (.iqBeatLast v) started = .next t

/-- `41_decimation.md` R122, `40_invocation.md` R102: a beat inside a frame adds its code to its lane, chosen by the
parity of its position, and is counted; nothing else changes. -/
def Obligations.BeatAddsItsCodeToItsLane : Prop :=
  ∀ (v : Byte) (s : State), s.block.phase = .collect → s.block.invCancel = false →
    s.block.n < 2 * s.cfg.frames * s.cfg.ratio → s.block.n % (2 * s.cfg.ratio) ≠ 2 * s.cfg.ratio - 1 →
      exec (.iqBeat v) s = .next { s with block := { s.block with
        n := s.block.n + 1
        accI := if s.block.n % 2 = 0 then s.block.accI + (2 * (v.toNat : Int) - 255) else s.block.accI
        accQ := if s.block.n % 2 = 0 then s.block.accQ else s.block.accQ + (2 * (v.toNat : Int) - 255) } }

/-- `41_decimation.md` R123: the beat that ends frame `j` adds its Q sample, updates the peak energy, stores the
sample into the slots of `OUTBUF[j]` that the mode selects (`43_formatter.md` R161) and into no other frame, and clears
both sums; nothing else changes. -/
def Obligations.BeatEndingAFrameStoresIt : Prop :=
  ∀ (v : Byte) (s : State), 1 ≤ s.cfg.ratio → s.block.phase = .collect → s.block.invCancel = false →
    s.block.n < 2 * s.cfg.frames * s.cfg.ratio → s.block.n % (2 * s.cfg.ratio) = 2 * s.cfg.ratio - 1 →
      let sQ := s.block.accQ + (2 * (v.toNat : Int) - 255)
      let e := (s.block.accI * s.block.accI + sQ * sQ).toNat
      let a := sample (255 * s.cfg.ratio) e s.block.invClamp
      exec (.iqBeat v) s = .next { s with block := { s.block with
        n := s.block.n + 1
        accI := 0
        accQ := 0
        emax := max s.block.emax e
        outbuf := s.block.outbuf.set (s.block.n / (2 * s.cfg.ratio))
          (match s.block.invRoute with
            | .both => { left := a, right := a }
            | .left => { left := a, right := 0x00000000 }
            | .right => { left := 0x00000000, right := a }) } }

/-- `41_decimation.md` R124 and `40_invocation.md` R103: a beat past the buffer's length only sets `over`, and a beat of a
cancelled invocation after its first changes nothing. -/
def Obligations.ExcessAndCancelledBeatsAreNotUsed : Prop :=
  ∀ (v : Byte) (s : State), s.block.phase = .collect →
    (s.block.invCancel = false → 2 * s.cfg.frames * s.cfg.ratio ≤ s.block.n →
      exec (.iqBeat v) s = .next { s with block := { s.block with overLen := true } }) ∧
    (s.block.invCancel = true → exec (.iqBeat v) s = .next s)

/-- `40_invocation.md` R104: the last byte is used like any other byte, then the buffer is decided: cancelled, of the
wrong length, or valid. -/
def Obligations.LastBeatDecidesTheBuffer : Prop :=
  ∀ (v : Byte) (s : State), s.block.phase ≠ .sink →
    ∃ t, exec (.iqBeat v) s = .next t ∧
      exec (.iqBeatLast v) s = .next { t with block :=
        if t.block.invCancel = true then { t.block with phase := .idle }
        else if t.block.overLen = true ∨ t.block.n ≠ 2 * t.cfg.frames * t.cfg.ratio then
          { t.block with lenErr := true, phase := .idle }
        else { t.block with w := 0, phase := .sink } }

/-- `40_invocation.md` R107, `30_encoding.md` R74: in `SINK` no beat is taken, and outside `SINK` no response is
(that `exec` then answers the state unchanged is the model's form of it, log 3). -/
def Obligations.StreamOperationsWaitForTheirPhase : Prop :=
  ∀ (v : Byte) (acc : BitVec 1) (s : State),
    (s.block.phase = .sink → exec (.iqBeat v) s = .next s ∧ exec (.iqBeatLast v) s = .next s) ∧
    (s.block.phase ≠ .sink → exec .snkAccept s = .next s ∧ exec (.snkError acc) s = .next s)

/-- `40_invocation.md` R102, R104, frame of both beats: the control fields, `CANCEL`, `SINK_ERR`, `PEAK`, `DONE_CNT`,
`LAST_ACC` and the agents are unchanged; a beat that is not the last leaves `LEN_ERR` and `w`; and every frame of `OUTBUF`
is unchanged but the one the byte's position completes. -/
def Obligations.BeatsStoreOnlyTheFrameTheyComplete : Prop :=
  ∀ (v : Byte) (i : Instr) (s t : State), i = .iqBeat v ∨ i = .iqBeatLast v → exec i s = .next t →
    t.cfg = s.cfg ∧ t.env = s.env ∧ t.block.route = s.block.route ∧ t.block.clamp = s.block.clamp ∧
    t.block.cancel = s.block.cancel ∧ t.block.sinkErr = s.block.sinkErr ∧ t.block.peak = s.block.peak ∧
    t.block.doneCnt = s.block.doneCnt ∧ t.block.lastAcc = s.block.lastAcc ∧
    (i = .iqBeat v → t.block.lenErr = s.block.lenErr ∧ t.block.w = s.block.w) ∧
    (∀ j, j ≠ s.block.startIfIdle.n / s.cfg.frameLen → t.block.outbuf[j]? = s.block.outbuf[j]?) ∧
    (s.block.startIfIdle.invCancel = true ∨ s.cfg.rawLen ≤ s.block.startIfIdle.n ∨
        s.cfg.endsFrame s.block.startIfIdle.n = false → t.block.outbuf = s.block.outbuf)

/-! ### The sink -/

/-- `43_formatter.md` R164: with frames still to go, `SNK_ACCEPT` delivers frame `w` (Left in the low word) and moves on;
nothing else changes. -/
def Obligations.AcceptDeliversFrameAndMovesOn : Prop :=
  ∀ (s : State) (f : Frame), s.block.phase = .sink → s.block.w + 1 < s.cfg.frames →
    s.block.outbuf[s.block.w]? = some f →
      exec .snkAccept s = .next { s with
        block := { s.block with w := s.block.w + 1 }
        env := { s.env with sinkGot := s.env.sinkGot ++ [f.right ++ f.left] } }

/-- `43_formatter.md` R164, R166: the accept of the last frame delivers it and ends the sink phase. -/
def Obligations.LastAcceptEndsTheSinkPhase : Prop :=
  ∀ (s : State) (f : Frame), s.block.phase = .sink → s.block.w + 1 = s.cfg.frames →
    s.block.outbuf[s.block.w]? = some f →
      exec .snkAccept s = .next { s with
        block := { s.block with
          w := s.cfg.frames
          lastAcc := BitVec.ofNat 32 s.cfg.frames
          peak := magBits (255 * s.cfg.ratio) s.block.emax
          doneCnt := s.block.doneCnt + 1
          phase := .idle }
        env := { s.env with sinkGot := s.env.sinkGot ++ [f.right ++ f.left] } }

/-- `43_formatter.md` R165, R166, `30_encoding.md` R74: `SNK_ERROR`, with either `ACC` bit, records the error and the
count of accepted frames, and ends the sink phase without delivering. -/
def Obligations.SinkErrorEndsTheSinkPhase : Prop :=
  ∀ (acc : BitVec 1) (s : State), s.block.phase = .sink →
    exec (.snkError acc) s = .next { s with block := { s.block with
      sinkErr := true
      lastAcc := BitVec.ofNat 32 s.block.w
      peak := magBits (255 * s.cfg.ratio) s.block.emax
      doneCnt := s.block.doneCnt + 1
      phase := .idle } }

/-- `43_formatter.md` R164, R165, frame of both responses: every frame of `OUTBUF`, the datapath, the snapshots, the
control fields, `CANCEL` and `LEN_ERR` are unchanged, the Host is answered nothing, and an error delivers nothing. -/
def Obligations.SinkResponsesLeaveTheDatapathAlone : Prop :=
  ∀ (acc : BitVec 1) (i : Instr) (s t : State), i = .snkAccept ∨ i = .snkError acc → exec i s = .next t →
    t.cfg = s.cfg ∧ (∀ j : Nat, t.block.outbuf[j]? = s.block.outbuf[j]?) ∧
    t.block = { s.block with
      phase := t.block.phase
      w := t.block.w
      sinkErr := t.block.sinkErr
      lastAcc := t.block.lastAcc
      peak := t.block.peak
      doneCnt := t.block.doneCnt } ∧
    t.env = { s.env with sinkGot := t.env.sinkGot } ∧
    (i = .snkAccept → t.block.sinkErr = s.block.sinkErr) ∧
    (i = .snkError acc → t.block.w = s.block.w ∧ t.env = s.env)

/-- `43_formatter.md` R168, R170: in every state that meets the invariants, the frame that `SNK_ACCEPT` delivers obeys the
routing laws and the range of its invocation's snapshots. -/
def Obligations.DeliveredFrameObeysItsSnapshots : Prop :=
  ∀ s : State, s.ShapeInv → s.ValuesInv → s.block.phase = .sink →
    ∃ f t, exec .snkAccept s = .next t ∧ t.env.sinkGot = s.env.sinkGot ++ [f.word] ∧
      s.block.outbuf[s.block.w]? = some f ∧ f.Obeys s.block.invRoute s.block.invClamp

/-! ### Reset -/

/-- `70_reset_and_hazards.md` R240: in every state `RST` sets every field of the block to its reset value
(that the agents' queues and records are kept is the model's choice, log 12). -/
def Obligations.ResetRestoresEveryField : Prop :=
  ∀ s : State, exec .rst s = .next { s with block := {
    route := .both
    clamp := false
    cancel := false
    lenErr := false
    sinkErr := false
    peak := 0x00000000
    doneCnt := 0
    lastAcc := 0
    phase := .idle
    invCancel := false
    invRoute := .both
    invClamp := false
    n := 0
    overLen := false
    accI := 0
    accQ := 0
    emax := 0
    w := 0
    outbuf := List.replicate s.cfg.frames { left := 0x00000000, right := 0x00000000 } } }

/-- `70_reset_and_hazards.md` R241: after reset, whatever the parameters, the block is idle and takes beats, offers no
frame and asks for no abort. -/
def Obligations.AfterResetThePortsAreIdle : Prop :=
  ∀ (s t : State), exec .rst s = .next t →
    t.block.phase = .idle ∧ t.block.cancel = false ∧ t.block.iqReady = true ∧ t.block.snkValid = false ∧
    t.block.srcAbort = false

/-! ### Numbers -/

/-- `30_encoding.md` R72, `41_decimation.md` R125 (a): the code of a byte is odd, at most 255 in size, and `c(v)/255` is
the amplitude `(v - 127.5)/127.5`. -/
def Obligations.SampleCodeIsTheOddOffsetCode : Prop :=
  ∀ v : Byte, sampleCode v % 2 = 1 ∧ |sampleCode v| ≤ 255 ∧
    (sampleCode v : ℚ) / 255 = ((v.toNat : ℚ) - 255 / 2) / (255 / 2)

/-- `41_decimation.md` R125 (d), `42_magnitude.md` R140, `00_scope.md` R7: `W_S` bits hold every component sum and one bit
fewer does not; `W_E` bits hold every energy and one bit fewer does not. -/
def Obligations.WidthsHoldEverySumAndEnergy : Prop :=
  ∀ p : Params, p.legal = true →
    (∀ x : Int, |x| ≤ 255 * (p.ratio : Int) → -2 ^ (p.sumWidth - 1) ≤ x ∧ x < 2 ^ (p.sumWidth - 1)) ∧
    2 ^ (p.sumWidth - 2) ≤ 255 * p.ratio ∧
    (∀ x y : Int, |x| ≤ 255 * (p.ratio : Int) → |y| ≤ 255 * (p.ratio : Int) →
      (energy x y : Int) = x ^ 2 + y ^ 2 ∧ energy x y < 2 ^ p.energyWidth) ∧
    2 ^ (p.energyWidth - 1) ≤ 2 * (255 * p.ratio) ^ 2

/-- `42_magnitude.md` R143 (a): the magnitude of 0 is +0, and every other one is a positive normal finite pattern. -/
def Obligations.MagnitudeIsZeroOrNormal : Prop :=
  ∀ p : Params, p.legal = true →
    magBits p.scale 0 = 0x00000000 ∧
    ∀ e : Nat, 1 ≤ e → e ≤ 2 * p.scale ^ 2 →
      0x00800000 ≤ (magBits p.scale e).toNat ∧ (magBits p.scale e).toNat < 0x7F800000

/-- `42_magnitude.md` R143 (b): the magnitude is monotone, as unsigned patterns and as reals (the value of
a pattern is taken from IEEE 754, log 13). -/
def Obligations.MagnitudeIsMonotone : Prop :=
  ∀ p : Params, p.legal = true → ∀ e₁ e₂ : Nat, e₁ ≤ e₂ → e₂ ≤ 2 * p.scale ^ 2 →
    magBits p.scale e₁ ≤ magBits p.scale e₂ ∧
    binary32Value (magBits p.scale e₁) ≤ binary32Value (magBits p.scale e₂)

/-- `42_magnitude.md` R143 (c), (d): the largest energy gives `0x3FB504F3` and the energy `D^2` gives 1.0 exactly. -/
def Obligations.FullScaleMagnitudes : Prop :=
  ∀ p : Params, p.legal = true →
    magBits p.scale (2 * p.scale ^ 2) = 0x3FB504F3 ∧ magBits p.scale (p.scale ^ 2) = 0x3F800000

/-- `42_magnitude.md` R143 (e): the magnitude of constant bytes does not depend on `RATIO`. -/
def Obligations.MagnitudeOfConstantBytesIgnoresRatio : Prop :=
  ∀ p : Params, p.legal = true → ∀ x : Nat, x ≤ 2 * 255 ^ 2 →
    magBits p.scale (p.ratio ^ 2 * x) = magBits 255 x

/-- `42_magnitude.md` R141, `00_scope.md` R13: `MagBits(E)` is the binary32 value nearest to `sqrt(E)/D`, ties to even,
among all finite non-negative patterns (the value of a subnormal one is taken from IEEE 754, log 13). -/
def Obligations.MagnitudeIsCorrectlyRounded : Prop :=
  ∀ p : Params, p.legal = true → ∀ e : Nat, e ≤ 2 * p.scale ^ 2 →
    IsNearestEven (Real.sqrt e / p.scale) (magBits p.scale e)

/-- `43_formatter.md` R162: the sample is the magnitude, or with the clamp the smaller of it and 1.0. -/
def Obligations.SampleIsTheMagnitudeOrItsClamp : Prop :=
  ∀ d e : Nat,
    sample d e false = magBits d e ∧ (sample d e true).toNat = min (magBits d e).toNat 0x3F800000

/-- `41_decimation.md` R126: where frame `j` repeats one pair of bytes, its sums are exactly `RATIO` times their codes,
and its magnitude is that of the pair alone at `RATIO = 1`. -/
def Obligations.ConstantBytesGiveTheirExactMean : Prop :=
  ∀ (p : Params) (bytes : List Byte) (j : Nat) (x y : Byte), p.legal = true → j < p.frames →
    bytes.length = p.rawLen →
    (∀ k, k < p.ratio → bytes[2 * p.ratio * j + 2 * k]? = some x ∧ bytes[2 * p.ratio * j + 2 * k + 1]? = some y) →
      sumI p bytes j = p.ratio * sampleCode x ∧ sumQ p bytes j = p.ratio * sampleCode y ∧
      magBits p.scale (bufferEnergy p bytes j) = magBits 255 (energy (sampleCode x) (sampleCode y))

/-! ### Whole buffers -/

/-- `40_invocation.md` R106, R108: a buffer that is not cancelled and has `RAWLEN` bytes, whatever the Host asks for
between its beats, leaves `OUTBUF` holding the frames of this buffer, each in the slots its mode selects
(`43_formatter.md` R161), `emax` its largest energy, and `SINK` entered with `w = 0`. The Host's fields are what the Host's
requests alone make of them. -/
def Obligations.ValidBufferFillsTheOutputBuffer : Prop :=
  ∀ (s : State) (bytes : List Byte) (ops : List Instr), s.cfg.legal = true →
    s.block.outbuf.length = s.cfg.frames → s.block.phase = .idle → s.block.cancel = false →
    BringsBuffer bytes ops → bytes.length = s.cfg.rawLen →
      ∃ t h, runOps ops s = .next t ∧ runOps (hostOps ops) s = .next h ∧
        t.block.phase = .sink ∧ t.block.w = 0 ∧
        t.block.outbuf = (List.range s.cfg.frames).map (fun j =>
          let a := sample s.cfg.scale (bufferEnergy s.cfg bytes j) s.block.clamp
          match s.block.route with
          | .both => { left := a, right := a }
          | .left => { left := a, right := 0x00000000 }
          | .right => { left := 0x00000000, right := a }) ∧
        (∀ j, j < s.cfg.frames → bufferEnergy s.cfg bytes j ≤ t.block.emax) ∧
        (∃ j, j < s.cfg.frames ∧ t.block.emax = bufferEnergy s.cfg bytes j) ∧
        t.env.sinkGot = s.env.sinkGot ∧ t.cfg = s.cfg ∧
        t.block.peak = s.block.peak ∧ t.block.doneCnt = s.block.doneCnt ∧ t.block.lastAcc = s.block.lastAcc ∧
        t.block.route = h.block.route ∧ t.block.clamp = h.block.clamp ∧ t.block.cancel = h.block.cancel ∧
        t.block.lenErr = h.block.lenErr ∧ t.block.sinkErr = h.block.sinkErr

/-- `40_invocation.md` R105, R108: a buffer that is not cancelled and has another length is ignored: nothing is offered,
`PEAK`, `DONE_CNT` and `LAST_ACC` keep their values, `LEN_ERR` is 1 and the Engine is idle. -/
def Obligations.WrongLengthBufferIsIgnored : Prop :=
  ∀ (s : State) (bytes : List Byte) (ops : List Instr), s.cfg.legal = true → s.block.phase = .idle →
    s.block.cancel = false → BringsBuffer bytes ops → bytes.length ≠ s.cfg.rawLen →
      ∃ t h, runOps ops s = .next t ∧ runOps (hostOps ops) s = .next h ∧
        t.block.phase = .idle ∧ t.block.lenErr = true ∧ t.block.w = s.block.w ∧
        t.env.sinkGot = s.env.sinkGot ∧ t.cfg = s.cfg ∧
        t.block.peak = s.block.peak ∧ t.block.doneCnt = s.block.doneCnt ∧ t.block.lastAcc = s.block.lastAcc ∧
        t.block.route = h.block.route ∧ t.block.clamp = h.block.clamp ∧ t.block.cancel = h.block.cancel ∧
        t.block.sinkErr = h.block.sinkErr

/-- `40_invocation.md` R103, R108: a buffer whose first beat finds `CANCEL` set, of whatever length, is taken and
discarded: the Engine is idle again, no frame of `OUTBUF` is written, nothing is offered, and no status bit or counter
changes but by the Host's own requests. That the first beat also clears `n` follows the pseudocode (log 9). -/
def Obligations.CancelledBufferIsANoOp : Prop :=
  ∀ (s : State) (bytes : List Byte) (ops : List Instr), s.block.phase = .idle → s.block.cancel = true →
    BringsBuffer bytes ops →
      ∃ t h, runOps ops s = .next t ∧ runOps (hostOps ops) s = .next h ∧
        t.block.phase = .idle ∧ t.block.outbuf = s.block.outbuf ∧ t.block.w = s.block.w ∧ t.block.n = 0 ∧
        t.env.sinkGot = s.env.sinkGot ∧ t.cfg = s.cfg ∧
        t.block.peak = s.block.peak ∧ t.block.doneCnt = s.block.doneCnt ∧ t.block.lastAcc = s.block.lastAcc ∧
        t.block.route = h.block.route ∧ t.block.clamp = h.block.clamp ∧ t.block.cancel = h.block.cancel ∧
        t.block.lenErr = h.block.lenErr ∧ t.block.sinkErr = h.block.sinkErr

/-- `10_state.md` R39: what an invocation sends to the Sink depends only on its bytes and its snapshots: from any two idle
states with the same parameters, routing and clamp, whatever else they hold and whatever their Hosts ask for, the same
bytes and the same answers of the Sink deliver the same frames. -/
def Obligations.SentFramesDependOnlyOnBytesAndSnapshots : Prop :=
  ∀ (s₁ s₂ : State) (bytes : List Byte) (ops₁ ops₂ answers : List Instr), s₁.cfg = s₂.cfg → s₁.cfg.legal = true →
    s₁.block.outbuf.length = s₁.cfg.frames → s₂.block.outbuf.length = s₂.cfg.frames →
    s₁.block.phase = .idle → s₂.block.phase = .idle → s₁.block.cancel = s₂.block.cancel →
    s₁.block.route = s₂.block.route → s₁.block.clamp = s₂.block.clamp →
    BringsBuffer bytes ops₁ → BringsBuffer bytes ops₂ → (∀ i ∈ answers, i.port = .snk) →
      ∃ t₁ t₂ sent, runOps (ops₁ ++ answers) s₁ = .next t₁ ∧ runOps (ops₂ ++ answers) s₂ = .next t₂ ∧
        t₁.env.sinkGot = s₁.env.sinkGot ++ sent ∧ t₂.env.sinkGot = s₂.env.sinkGot ++ sent

/-- `43_formatter.md` R164, R166, `20_memory.md` R60 (b): `k` accepts deliver the next `k` frames in ascending order, and
the sink phase ends exactly when all `FRAMES` have been accepted. -/
def Obligations.AcceptsDeliverFramesInOrder : Prop :=
  ∀ (s : State) (k : Nat), s.ShapeInv → s.block.phase = .sink → s.block.w + k ≤ s.cfg.frames →
    ∃ t, runOps (List.replicate k .snkAccept) s = .next t ∧
      t.env.sinkGot = s.env.sinkGot ++ ((s.block.outbuf.drop s.block.w).take k).map Frame.word ∧
      (t.block.phase = .idle ↔ s.block.w + k = s.cfg.frames) ∧
      (s.block.w + k = s.cfg.frames → t.block.lastAcc = BitVec.ofNat 32 s.cfg.frames ∧
        t.block.doneCnt = s.block.doneCnt + 1)

/-- `43_formatter.md` R169: over any execution from reset, the frames delivered are, for each ended sink phase in order,
the first `LAST_ACC` of its frames, and then the frames accepted of the one in progress. An invocation that a further reset
abandons in its sink phase contributes the frames accepted until then (`70_reset_and_hazards.md` R240). The record of the
frames delivered is the model's, empty at reset and kept by `RST` (log 5, log 12). -/
def Obligations.DeliveredStreamIsThePrefixesInOrder : Prop :=
  ∀ (p : Params) (ops : List Instr), p.legal = true →
    ∃ t, runOps ops (State.resetWith p) = .next t ∧
      t.env.sinkGot =
        (servedAlong ops (State.resetWith p)).flatMap (fun v => v.frames.take v.accepted) ++ t.block.acceptedSoFar

/-- `20_memory.md` R62: from a state with `CANCEL` set and `BUSY = 0`, whatever the Host, Source and Sink offer and in
whatever order, and with reset never asserted, no sink phase is ever entered, no frame is delivered, and `DONE_CNT`,
`PEAK` and `LAST_ACC` never change. -/
def Obligations.NothingIsSentAfterShutdown : Prop :=
  ∀ (s : State) (k : Nat), s.block.cancel = true → s.block.phase = .idle → (∀ l ∈ s.env.rstIn, l = 0) →
    ∃ t : State, Host.Core.run Sys2Proof.core k s = .next t ∧ t.block.cancel = true ∧ t.block.phase ≠ .sink ∧
      t.env.sinkGot = s.env.sinkGot ∧ t.block.doneCnt = s.block.doneCnt ∧ t.block.peak = s.block.peak ∧
      t.block.lastAcc = s.block.lastAcc

/-- `43_formatter.md` R171: a valid buffer with a frame of the largest energy reports `0x3FB504F3` as its peak, however
its sink phase ends. -/
def Obligations.FullScaleFrameGivesTheLargestPeak : Prop :=
  ∀ (s : State) (bytes : List Byte) (ops : List Instr) (acc : BitVec 1) (j k : Nat), s.cfg.legal = true →
    s.block.outbuf.length = s.cfg.frames → s.block.phase = .idle → s.block.cancel = false →
    BringsBuffer bytes ops → bytes.length = s.cfg.rawLen →
    j < s.cfg.frames → bufferEnergy s.cfg bytes j = 2 * s.cfg.scale ^ 2 → k < s.cfg.frames →
      (∃ t, runOps (ops ++ List.replicate s.cfg.frames .snkAccept) s = .next t ∧ t.block.peak = 0x3FB504F3 ∧
        t.block.phase = .idle) ∧
      ∃ t, runOps (ops ++ (List.replicate k .snkAccept ++ [.snkError acc])) s = .next t ∧
        t.block.peak = 0x3FB504F3 ∧ t.block.lastAcc = BitVec.ofNat 32 k ∧ t.block.phase = .idle

/-! ### Whole-machine rules -/

/-- `10_state.md` R30: the phase after each operation; no other transition exists. -/
def Obligations.PhaseMovesOnlyAsListed : Prop :=
  ∀ (i : Instr) (s t : State), s.cfg.legal = true → exec i s = .next t →
    match i with
    | .iqBeat _ => t.block.phase = if s.block.phase = .sink then .sink else .collect
    | .iqBeatLast _ =>
      t.block.phase =
        match s.block.phase with
        | .idle => .idle
        | .sink => .sink
        | .collect =>
          if s.block.invCancel = false ∧ s.block.overLen = false ∧ s.block.n + 1 = s.cfg.rawLen then .sink else .idle
    | .snkAccept =>
      t.block.phase = if s.block.phase = .sink ∧ s.block.w + 1 = s.cfg.frames then .idle else s.block.phase
    | .snkError _ => t.block.phase = if s.block.phase = .sink then .idle else s.block.phase
    | .rst => t.block.phase = .idle
    | _ => t.block.phase = s.block.phase

/-- `10_state.md` R31, `20_memory.md` R64: within an invocation no operation but reset changes its snapshots. -/
def Obligations.SnapshotsHoldThroughTheInvocation : Prop :=
  ∀ (i : Instr) (s t : State), s.block.phase ≠ .idle → i ≠ .rst → exec i s = .next t →
    t.block.invCancel = s.block.invCancel ∧ t.block.invRoute = s.block.invRoute ∧
    t.block.invClamp = s.block.invClamp

/-- `10_state.md` R24: only a `SHUTDOWN` write with bit 0 set sets `CANCEL`, and only reset clears it. -/
def Obligations.CancelMovesOnlyByShutdownAndReset : Prop :=
  ∀ (i : Instr) (s t : State), exec i s = .next t →
    (s.block.cancel = true → t.block.cancel = false → i = .rst) ∧
    (s.block.cancel = false → t.block.cancel = true → ∃ a d, i = .ctlWrShutdown a d ∧ d.getLsbD 0 = true)

/-- `60_exceptions.md` R221, `10_state.md` R25, R26: `LEN_ERR` is raised only by the last beat of a buffer that is not
cancelled and has the wrong length, `SINK_ERR` only by `SNK_ERROR` in `SINK`; each is cleared only by a `STATUS` write with
its bit set, or by reset. -/
def Obligations.ErrorBitsMoveOnlyByTheirEvents : Prop :=
  ∀ (i : Instr) (s t : State), exec i s = .next t →
    (s.block.lenErr = false → t.block.lenErr = true →
      (∃ v, i = .iqBeatLast v) ∧ s.block.phase ≠ .sink ∧ t.block.invCancel = false ∧
        (t.block.overLen = true ∨ t.block.n ≠ s.cfg.rawLen)) ∧
    (s.block.sinkErr = false → t.block.sinkErr = true → (∃ acc, i = .snkError acc) ∧ s.block.phase = .sink) ∧
    (s.block.lenErr = true → t.block.lenErr = false →
      i = .rst ∨ ∃ a d, i = .ctlWrStatus a d ∧ d.getLsbD 2 = true) ∧
    (s.block.sinkErr = true → t.block.sinkErr = false →
      i = .rst ∨ ∃ a d, i = .ctlWrStatus a d ∧ d.getLsbD 3 = true)

/-- `10_state.md` R28, R27, R29: `DONE_CNT` goes up by 1 modulo 2^32 when a sink phase ends, and nothing else but reset
changes it, `PEAK` or `LAST_ACC`. -/
def Obligations.CountersMoveOnlyAtTheEndOfASinkPhase : Prop :=
  ∀ (i : Instr) (s t : State), i ≠ .rst → exec i s = .next t →
    (s.block.phase = .sink ∧ t.block.phase = .idle →
      t.block.doneCnt.toNat = (s.block.doneCnt.toNat + 1) % 2 ^ 32 ∧
      t.block.peak = magBits s.cfg.scale s.block.emax) ∧
    (¬(s.block.phase = .sink ∧ t.block.phase = .idle) →
      t.block.doneCnt = s.block.doneCnt ∧ t.block.peak = s.block.peak ∧ t.block.lastAcc = s.block.lastAcc)

/-! ### Invariants -/

/-- `70_reset_and_hazards.md` R240: the state after reset meets the invariants, for every legal parameters, and
`State.reset` with its own (log 1). -/
def Obligations.ResetMeetsTheInvariants : Prop :=
  (∀ p : Params, p.legal = true →
    (State.resetWith p).ShapeInv ∧ (State.resetWith p).SumsInv ∧ (State.resetWith p).ValuesInv) ∧
  State.reset.ShapeInv ∧ State.reset.SumsInv ∧ State.reset.ValuesInv

/-- `10_state.md` R29, R30, R32, R35, R36: every step keeps the counts and the sequencer within their bounds. -/
def Obligations.StepKeepsTheShape : Prop :=
  ∀ s t : State, s.ShapeInv → step s = .next t → t.ShapeInv

/-- `41_decimation.md` R125 (b): every step keeps the running sums within `255*m` and of the parity of `m`. -/
def Obligations.StepKeepsTheSums : Prop :=
  ∀ s t : State, s.SumsInv → step s = .next t → t.SumsInv

/-- `43_formatter.md` R168, R170, `10_state.md` R27, R34: every step keeps the energies, the peak and the completed frames
within their laws. -/
def Obligations.StepKeepsTheValues : Prop :=
  ∀ s t : State, s.ValuesInv → step s = .next t → t.ValuesInv

end
end

