-- ==== Sys2Proof/Laws/State.lean ====
section
/-! SUPPORT. One lemma per field per update: what each update of the block and of the machine leaves and what it writes,
so that no later proof unfolds a record update. -/

namespace Sys2Proof.Machine

namespace Block

section startInvocation

variable (b : Block)

@[simp] theorem startInvocation_route : b.startInvocation.route = b.route := rfl
@[simp] theorem startInvocation_clamp : b.startInvocation.clamp = b.clamp := rfl
@[simp] theorem startInvocation_cancel : b.startInvocation.cancel = b.cancel := rfl
@[simp] theorem startInvocation_lenErr : b.startInvocation.lenErr = b.lenErr := rfl
@[simp] theorem startInvocation_sinkErr : b.startInvocation.sinkErr = b.sinkErr := rfl
@[simp] theorem startInvocation_peak : b.startInvocation.peak = b.peak := rfl
@[simp] theorem startInvocation_doneCnt : b.startInvocation.doneCnt = b.doneCnt := rfl
@[simp] theorem startInvocation_lastAcc : b.startInvocation.lastAcc = b.lastAcc := rfl
@[simp] theorem startInvocation_phase : b.startInvocation.phase = b.phase := rfl
@[simp] theorem startInvocation_invCancel : b.startInvocation.invCancel = b.cancel := rfl
@[simp] theorem startInvocation_invRoute : b.startInvocation.invRoute = b.route := rfl
@[simp] theorem startInvocation_invClamp : b.startInvocation.invClamp = b.clamp := rfl
@[simp] theorem startInvocation_n : b.startInvocation.n = 0 := rfl
@[simp] theorem startInvocation_overLen : b.startInvocation.overLen = false := rfl
@[simp] theorem startInvocation_accI : b.startInvocation.accI = 0 := rfl
@[simp] theorem startInvocation_accQ : b.startInvocation.accQ = 0 := rfl
@[simp] theorem startInvocation_emax : b.startInvocation.emax = 0 := rfl
@[simp] theorem startInvocation_w : b.startInvocation.w = b.w := rfl
@[simp] theorem startInvocation_outbuf : b.startInvocation.outbuf = b.outbuf := rfl

end startInvocation

section startIfIdle

variable (b : Block)

@[simp] theorem startIfIdle_route : b.startIfIdle.route = b.route := by unfold startIfIdle; split <;> rfl
@[simp] theorem startIfIdle_clamp : b.startIfIdle.clamp = b.clamp := by unfold startIfIdle; split <;> rfl
@[simp] theorem startIfIdle_cancel : b.startIfIdle.cancel = b.cancel := by unfold startIfIdle; split <;> rfl
@[simp] theorem startIfIdle_lenErr : b.startIfIdle.lenErr = b.lenErr := by unfold startIfIdle; split <;> rfl
@[simp] theorem startIfIdle_sinkErr : b.startIfIdle.sinkErr = b.sinkErr := by unfold startIfIdle; split <;> rfl
@[simp] theorem startIfIdle_peak : b.startIfIdle.peak = b.peak := by unfold startIfIdle; split <;> rfl
@[simp] theorem startIfIdle_doneCnt : b.startIfIdle.doneCnt = b.doneCnt := by unfold startIfIdle; split <;> rfl
@[simp] theorem startIfIdle_lastAcc : b.startIfIdle.lastAcc = b.lastAcc := by unfold startIfIdle; split <;> rfl
@[simp] theorem startIfIdle_phase : b.startIfIdle.phase = b.phase := by unfold startIfIdle; split <;> rfl
@[simp] theorem startIfIdle_w : b.startIfIdle.w = b.w := by unfold startIfIdle; split <;> rfl
@[simp] theorem startIfIdle_outbuf : b.startIfIdle.outbuf = b.outbuf := by unfold startIfIdle; split <;> rfl

end startIfIdle

section writeCtrl

variable (b : Block) (d : Word)

@[simp] theorem writeCtrl_route : (b.writeCtrl d).route = b.route.write (d.extractLsb' 0 2) := rfl
@[simp] theorem writeCtrl_clamp : (b.writeCtrl d).clamp = d.getLsbD 2 := rfl
@[simp] theorem writeCtrl_cancel : (b.writeCtrl d).cancel = b.cancel := rfl
@[simp] theorem writeCtrl_lenErr : (b.writeCtrl d).lenErr = b.lenErr := rfl
@[simp] theorem writeCtrl_sinkErr : (b.writeCtrl d).sinkErr = b.sinkErr := rfl
@[simp] theorem writeCtrl_peak : (b.writeCtrl d).peak = b.peak := rfl
@[simp] theorem writeCtrl_doneCnt : (b.writeCtrl d).doneCnt = b.doneCnt := rfl
@[simp] theorem writeCtrl_lastAcc : (b.writeCtrl d).lastAcc = b.lastAcc := rfl
@[simp] theorem writeCtrl_phase : (b.writeCtrl d).phase = b.phase := rfl
@[simp] theorem writeCtrl_invCancel : (b.writeCtrl d).invCancel = b.invCancel := rfl
@[simp] theorem writeCtrl_invRoute : (b.writeCtrl d).invRoute = b.invRoute := rfl
@[simp] theorem writeCtrl_invClamp : (b.writeCtrl d).invClamp = b.invClamp := rfl
@[simp] theorem writeCtrl_n : (b.writeCtrl d).n = b.n := rfl
@[simp] theorem writeCtrl_overLen : (b.writeCtrl d).overLen = b.overLen := rfl
@[simp] theorem writeCtrl_accI : (b.writeCtrl d).accI = b.accI := rfl
@[simp] theorem writeCtrl_accQ : (b.writeCtrl d).accQ = b.accQ := rfl
@[simp] theorem writeCtrl_emax : (b.writeCtrl d).emax = b.emax := rfl
@[simp] theorem writeCtrl_w : (b.writeCtrl d).w = b.w := rfl
@[simp] theorem writeCtrl_outbuf : (b.writeCtrl d).outbuf = b.outbuf := rfl

end writeCtrl

section writeStatus

variable (b : Block) (d : Word)

@[simp] theorem writeStatus_route : (b.writeStatus d).route = b.route := rfl
@[simp] theorem writeStatus_clamp : (b.writeStatus d).clamp = b.clamp := rfl
@[simp] theorem writeStatus_cancel : (b.writeStatus d).cancel = b.cancel := rfl
@[simp] theorem writeStatus_lenErr : (b.writeStatus d).lenErr = (b.lenErr && !d.getLsbD 2) := rfl
@[simp] theorem writeStatus_sinkErr : (b.writeStatus d).sinkErr = (b.sinkErr && !d.getLsbD 3) := rfl
@[simp] theorem writeStatus_peak : (b.writeStatus d).peak = b.peak := rfl
@[simp] theorem writeStatus_doneCnt : (b.writeStatus d).doneCnt = b.doneCnt := rfl
@[simp] theorem writeStatus_lastAcc : (b.writeStatus d).lastAcc = b.lastAcc := rfl
@[simp] theorem writeStatus_phase : (b.writeStatus d).phase = b.phase := rfl
@[simp] theorem writeStatus_invCancel : (b.writeStatus d).invCancel = b.invCancel := rfl
@[simp] theorem writeStatus_invRoute : (b.writeStatus d).invRoute = b.invRoute := rfl
@[simp] theorem writeStatus_invClamp : (b.writeStatus d).invClamp = b.invClamp := rfl
@[simp] theorem writeStatus_n : (b.writeStatus d).n = b.n := rfl
@[simp] theorem writeStatus_overLen : (b.writeStatus d).overLen = b.overLen := rfl
@[simp] theorem writeStatus_accI : (b.writeStatus d).accI = b.accI := rfl
@[simp] theorem writeStatus_accQ : (b.writeStatus d).accQ = b.accQ := rfl
@[simp] theorem writeStatus_emax : (b.writeStatus d).emax = b.emax := rfl
@[simp] theorem writeStatus_w : (b.writeStatus d).w = b.w := rfl
@[simp] theorem writeStatus_outbuf : (b.writeStatus d).outbuf = b.outbuf := rfl

end writeStatus

section writeShutdown

variable (b : Block) (d : Word)

@[simp] theorem writeShutdown_route : (b.writeShutdown d).route = b.route := rfl
@[simp] theorem writeShutdown_clamp : (b.writeShutdown d).clamp = b.clamp := rfl
@[simp] theorem writeShutdown_cancel : (b.writeShutdown d).cancel = (b.cancel || d.getLsbD 0) := rfl
@[simp] theorem writeShutdown_lenErr : (b.writeShutdown d).lenErr = b.lenErr := rfl
@[simp] theorem writeShutdown_sinkErr : (b.writeShutdown d).sinkErr = b.sinkErr := rfl
@[simp] theorem writeShutdown_peak : (b.writeShutdown d).peak = b.peak := rfl
@[simp] theorem writeShutdown_doneCnt : (b.writeShutdown d).doneCnt = b.doneCnt := rfl
@[simp] theorem writeShutdown_lastAcc : (b.writeShutdown d).lastAcc = b.lastAcc := rfl
@[simp] theorem writeShutdown_phase : (b.writeShutdown d).phase = b.phase := rfl
@[simp] theorem writeShutdown_invCancel : (b.writeShutdown d).invCancel = b.invCancel := rfl
@[simp] theorem writeShutdown_invRoute : (b.writeShutdown d).invRoute = b.invRoute := rfl
@[simp] theorem writeShutdown_invClamp : (b.writeShutdown d).invClamp = b.invClamp := rfl
@[simp] theorem writeShutdown_n : (b.writeShutdown d).n = b.n := rfl
@[simp] theorem writeShutdown_overLen : (b.writeShutdown d).overLen = b.overLen := rfl
@[simp] theorem writeShutdown_accI : (b.writeShutdown d).accI = b.accI := rfl
@[simp] theorem writeShutdown_accQ : (b.writeShutdown d).accQ = b.accQ := rfl
@[simp] theorem writeShutdown_emax : (b.writeShutdown d).emax = b.emax := rfl
@[simp] theorem writeShutdown_w : (b.writeShutdown d).w = b.w := rfl
@[simp] theorem writeShutdown_outbuf : (b.writeShutdown d).outbuf = b.outbuf := rfl

end writeShutdown

section raiseLenErr

variable (b : Block)

@[simp] theorem raiseLenErr_route : b.raiseLenErr.route = b.route := rfl
@[simp] theorem raiseLenErr_clamp : b.raiseLenErr.clamp = b.clamp := rfl
@[simp] theorem raiseLenErr_cancel : b.raiseLenErr.cancel = b.cancel := rfl
@[simp] theorem raiseLenErr_lenErr : b.raiseLenErr.lenErr = true := rfl
@[simp] theorem raiseLenErr_sinkErr : b.raiseLenErr.sinkErr = b.sinkErr := rfl
@[simp] theorem raiseLenErr_peak : b.raiseLenErr.peak = b.peak := rfl
@[simp] theorem raiseLenErr_doneCnt : b.raiseLenErr.doneCnt = b.doneCnt := rfl
@[simp] theorem raiseLenErr_lastAcc : b.raiseLenErr.lastAcc = b.lastAcc := rfl
@[simp] theorem raiseLenErr_phase : b.raiseLenErr.phase = b.phase := rfl
@[simp] theorem raiseLenErr_invCancel : b.raiseLenErr.invCancel = b.invCancel := rfl
@[simp] theorem raiseLenErr_invRoute : b.raiseLenErr.invRoute = b.invRoute := rfl
@[simp] theorem raiseLenErr_invClamp : b.raiseLenErr.invClamp = b.invClamp := rfl
@[simp] theorem raiseLenErr_n : b.raiseLenErr.n = b.n := rfl
@[simp] theorem raiseLenErr_overLen : b.raiseLenErr.overLen = b.overLen := rfl
@[simp] theorem raiseLenErr_accI : b.raiseLenErr.accI = b.accI := rfl
@[simp] theorem raiseLenErr_accQ : b.raiseLenErr.accQ = b.accQ := rfl
@[simp] theorem raiseLenErr_emax : b.raiseLenErr.emax = b.emax := rfl
@[simp] theorem raiseLenErr_w : b.raiseLenErr.w = b.w := rfl
@[simp] theorem raiseLenErr_outbuf : b.raiseLenErr.outbuf = b.outbuf := rfl

end raiseLenErr

section raiseSinkErr

variable (b : Block)

@[simp] theorem raiseSinkErr_route : b.raiseSinkErr.route = b.route := rfl
@[simp] theorem raiseSinkErr_clamp : b.raiseSinkErr.clamp = b.clamp := rfl
@[simp] theorem raiseSinkErr_cancel : b.raiseSinkErr.cancel = b.cancel := rfl
@[simp] theorem raiseSinkErr_lenErr : b.raiseSinkErr.lenErr = b.lenErr := rfl
@[simp] theorem raiseSinkErr_sinkErr : b.raiseSinkErr.sinkErr = true := rfl
@[simp] theorem raiseSinkErr_peak : b.raiseSinkErr.peak = b.peak := rfl
@[simp] theorem raiseSinkErr_doneCnt : b.raiseSinkErr.doneCnt = b.doneCnt := rfl
@[simp] theorem raiseSinkErr_lastAcc : b.raiseSinkErr.lastAcc = b.lastAcc := rfl
@[simp] theorem raiseSinkErr_phase : b.raiseSinkErr.phase = b.phase := rfl
@[simp] theorem raiseSinkErr_invCancel : b.raiseSinkErr.invCancel = b.invCancel := rfl
@[simp] theorem raiseSinkErr_invRoute : b.raiseSinkErr.invRoute = b.invRoute := rfl
@[simp] theorem raiseSinkErr_invClamp : b.raiseSinkErr.invClamp = b.invClamp := rfl
@[simp] theorem raiseSinkErr_n : b.raiseSinkErr.n = b.n := rfl
@[simp] theorem raiseSinkErr_overLen : b.raiseSinkErr.overLen = b.overLen := rfl
@[simp] theorem raiseSinkErr_accI : b.raiseSinkErr.accI = b.accI := rfl
@[simp] theorem raiseSinkErr_accQ : b.raiseSinkErr.accQ = b.accQ := rfl
@[simp] theorem raiseSinkErr_emax : b.raiseSinkErr.emax = b.emax := rfl
@[simp] theorem raiseSinkErr_w : b.raiseSinkErr.w = b.w := rfl
@[simp] theorem raiseSinkErr_outbuf : b.raiseSinkErr.outbuf = b.outbuf := rfl

end raiseSinkErr

section accumulate

variable (b : Block) (p : Nat) (v : Byte)

@[simp] theorem accumulate_route : (b.accumulate p v).route = b.route := by unfold accumulate; split <;> rfl
@[simp] theorem accumulate_clamp : (b.accumulate p v).clamp = b.clamp := by unfold accumulate; split <;> rfl
@[simp] theorem accumulate_cancel : (b.accumulate p v).cancel = b.cancel := by unfold accumulate; split <;> rfl
@[simp] theorem accumulate_lenErr : (b.accumulate p v).lenErr = b.lenErr := by unfold accumulate; split <;> rfl
@[simp] theorem accumulate_sinkErr : (b.accumulate p v).sinkErr = b.sinkErr := by unfold accumulate; split <;> rfl
@[simp] theorem accumulate_peak : (b.accumulate p v).peak = b.peak := by unfold accumulate; split <;> rfl
@[simp] theorem accumulate_doneCnt : (b.accumulate p v).doneCnt = b.doneCnt := by unfold accumulate; split <;> rfl
@[simp] theorem accumulate_lastAcc : (b.accumulate p v).lastAcc = b.lastAcc := by unfold accumulate; split <;> rfl
@[simp] theorem accumulate_phase : (b.accumulate p v).phase = b.phase := by unfold accumulate; split <;> rfl
@[simp] theorem accumulate_invCancel : (b.accumulate p v).invCancel = b.invCancel := by unfold accumulate; split <;> rfl
@[simp] theorem accumulate_invRoute : (b.accumulate p v).invRoute = b.invRoute := by unfold accumulate; split <;> rfl
@[simp] theorem accumulate_invClamp : (b.accumulate p v).invClamp = b.invClamp := by unfold accumulate; split <;> rfl
@[simp] theorem accumulate_n : (b.accumulate p v).n = b.n := by unfold accumulate; split <;> rfl
@[simp] theorem accumulate_overLen : (b.accumulate p v).overLen = b.overLen := by unfold accumulate; split <;> rfl
@[simp] theorem accumulate_accI : (b.accumulate p v).accI = if p % 2 = 0 then b.accI + sampleCode v else b.accI := by unfold accumulate; split <;> rfl
@[simp] theorem accumulate_accQ : (b.accumulate p v).accQ = if p % 2 = 0 then b.accQ else b.accQ + sampleCode v := by unfold accumulate; split <;> rfl
@[simp] theorem accumulate_emax : (b.accumulate p v).emax = b.emax := by unfold accumulate; split <;> rfl
@[simp] theorem accumulate_w : (b.accumulate p v).w = b.w := by unfold accumulate; split <;> rfl
@[simp] theorem accumulate_outbuf : (b.accumulate p v).outbuf = b.outbuf := by unfold accumulate; split <;> rfl

end accumulate

section peakUpdate

variable (b : Block) (e : Nat)

@[simp] theorem peakUpdate_route : (b.peakUpdate e).route = b.route := rfl
@[simp] theorem peakUpdate_clamp : (b.peakUpdate e).clamp = b.clamp := rfl
@[simp] theorem peakUpdate_cancel : (b.peakUpdate e).cancel = b.cancel := rfl
@[simp] theorem peakUpdate_lenErr : (b.peakUpdate e).lenErr = b.lenErr := rfl
@[simp] theorem peakUpdate_sinkErr : (b.peakUpdate e).sinkErr = b.sinkErr := rfl
@[simp] theorem peakUpdate_peak : (b.peakUpdate e).peak = b.peak := rfl
@[simp] theorem peakUpdate_doneCnt : (b.peakUpdate e).doneCnt = b.doneCnt := rfl
@[simp] theorem peakUpdate_lastAcc : (b.peakUpdate e).lastAcc = b.lastAcc := rfl
@[simp] theorem peakUpdate_phase : (b.peakUpdate e).phase = b.phase := rfl
@[simp] theorem peakUpdate_invCancel : (b.peakUpdate e).invCancel = b.invCancel := rfl
@[simp] theorem peakUpdate_invRoute : (b.peakUpdate e).invRoute = b.invRoute := rfl
@[simp] theorem peakUpdate_invClamp : (b.peakUpdate e).invClamp = b.invClamp := rfl
@[simp] theorem peakUpdate_n : (b.peakUpdate e).n = b.n := rfl
@[simp] theorem peakUpdate_overLen : (b.peakUpdate e).overLen = b.overLen := rfl
@[simp] theorem peakUpdate_accI : (b.peakUpdate e).accI = b.accI := rfl
@[simp] theorem peakUpdate_accQ : (b.peakUpdate e).accQ = b.accQ := rfl
@[simp] theorem peakUpdate_emax : (b.peakUpdate e).emax = max b.emax e := rfl
@[simp] theorem peakUpdate_w : (b.peakUpdate e).w = b.w := rfl
@[simp] theorem peakUpdate_outbuf : (b.peakUpdate e).outbuf = b.outbuf := rfl

end peakUpdate

section completeFrame

variable (b : Block) (p : Params) (j : Nat)

@[simp] theorem completeFrame_route : (b.completeFrame p j).route = b.route := rfl
@[simp] theorem completeFrame_clamp : (b.completeFrame p j).clamp = b.clamp := rfl
@[simp] theorem completeFrame_cancel : (b.completeFrame p j).cancel = b.cancel := rfl
@[simp] theorem completeFrame_lenErr : (b.completeFrame p j).lenErr = b.lenErr := rfl
@[simp] theorem completeFrame_sinkErr : (b.completeFrame p j).sinkErr = b.sinkErr := rfl
@[simp] theorem completeFrame_peak : (b.completeFrame p j).peak = b.peak := rfl
@[simp] theorem completeFrame_doneCnt : (b.completeFrame p j).doneCnt = b.doneCnt := rfl
@[simp] theorem completeFrame_lastAcc : (b.completeFrame p j).lastAcc = b.lastAcc := rfl
@[simp] theorem completeFrame_phase : (b.completeFrame p j).phase = b.phase := rfl
@[simp] theorem completeFrame_invCancel : (b.completeFrame p j).invCancel = b.invCancel := rfl
@[simp] theorem completeFrame_invRoute : (b.completeFrame p j).invRoute = b.invRoute := rfl
@[simp] theorem completeFrame_invClamp : (b.completeFrame p j).invClamp = b.invClamp := rfl
@[simp] theorem completeFrame_n : (b.completeFrame p j).n = b.n := rfl
@[simp] theorem completeFrame_overLen : (b.completeFrame p j).overLen = b.overLen := rfl
@[simp] theorem completeFrame_accI : (b.completeFrame p j).accI = 0 := rfl
@[simp] theorem completeFrame_accQ : (b.completeFrame p j).accQ = 0 := rfl
@[simp] theorem completeFrame_emax : (b.completeFrame p j).emax = max b.emax (energy b.accI b.accQ) := rfl
@[simp] theorem completeFrame_w : (b.completeFrame p j).w = b.w := rfl
@[simp] theorem completeFrame_outbuf : (b.completeFrame p j).outbuf = b.outbuf.set j (b.invRoute.frame (sample p.scale (energy b.accI b.accQ) b.invClamp)) := rfl

end completeFrame

section useByte

variable (b : Block) (p : Params) (v : Byte)

@[simp] theorem useByte_route : (b.useByte p v).route = b.route := by unfold useByte; split <;> simp
@[simp] theorem useByte_clamp : (b.useByte p v).clamp = b.clamp := by unfold useByte; split <;> simp
@[simp] theorem useByte_cancel : (b.useByte p v).cancel = b.cancel := by unfold useByte; split <;> simp
@[simp] theorem useByte_lenErr : (b.useByte p v).lenErr = b.lenErr := by unfold useByte; split <;> simp
@[simp] theorem useByte_sinkErr : (b.useByte p v).sinkErr = b.sinkErr := by unfold useByte; split <;> simp
@[simp] theorem useByte_peak : (b.useByte p v).peak = b.peak := by unfold useByte; split <;> simp
@[simp] theorem useByte_doneCnt : (b.useByte p v).doneCnt = b.doneCnt := by unfold useByte; split <;> simp
@[simp] theorem useByte_lastAcc : (b.useByte p v).lastAcc = b.lastAcc := by unfold useByte; split <;> simp
@[simp] theorem useByte_phase : (b.useByte p v).phase = b.phase := by unfold useByte; split <;> simp
@[simp] theorem useByte_invCancel : (b.useByte p v).invCancel = b.invCancel := by unfold useByte; split <;> simp
@[simp] theorem useByte_invRoute : (b.useByte p v).invRoute = b.invRoute := by unfold useByte; split <;> simp
@[simp] theorem useByte_invClamp : (b.useByte p v).invClamp = b.invClamp := by unfold useByte; split <;> simp
@[simp] theorem useByte_n : (b.useByte p v).n = b.n + 1 := by unfold useByte; split <;> simp
@[simp] theorem useByte_overLen : (b.useByte p v).overLen = b.overLen := by unfold useByte; split <;> simp
@[simp] theorem useByte_w : (b.useByte p v).w = b.w := by unfold useByte; split <;> simp

end useByte

section dataBeat

variable (b : Block) (p : Params) (v : Byte)

@[simp] theorem dataBeat_route : (b.dataBeat p v).route = b.route := by
  unfold dataBeat; (repeat' split) <;> simp
@[simp] theorem dataBeat_clamp : (b.dataBeat p v).clamp = b.clamp := by
  unfold dataBeat; (repeat' split) <;> simp
@[simp] theorem dataBeat_cancel : (b.dataBeat p v).cancel = b.cancel := by
  unfold dataBeat; (repeat' split) <;> simp
@[simp] theorem dataBeat_lenErr : (b.dataBeat p v).lenErr = b.lenErr := by
  unfold dataBeat; (repeat' split) <;> simp
@[simp] theorem dataBeat_sinkErr : (b.dataBeat p v).sinkErr = b.sinkErr := by
  unfold dataBeat; (repeat' split) <;> simp
@[simp] theorem dataBeat_peak : (b.dataBeat p v).peak = b.peak := by
  unfold dataBeat; (repeat' split) <;> simp
@[simp] theorem dataBeat_doneCnt : (b.dataBeat p v).doneCnt = b.doneCnt := by
  unfold dataBeat; (repeat' split) <;> simp
@[simp] theorem dataBeat_lastAcc : (b.dataBeat p v).lastAcc = b.lastAcc := by
  unfold dataBeat; (repeat' split) <;> simp
@[simp] theorem dataBeat_phase : (b.dataBeat p v).phase = b.phase := by
  unfold dataBeat; (repeat' split) <;> simp
@[simp] theorem dataBeat_invCancel : (b.dataBeat p v).invCancel = b.invCancel := by
  unfold dataBeat; (repeat' split) <;> simp
@[simp] theorem dataBeat_invRoute : (b.dataBeat p v).invRoute = b.invRoute := by
  unfold dataBeat; (repeat' split) <;> simp
@[simp] theorem dataBeat_invClamp : (b.dataBeat p v).invClamp = b.invClamp := by
  unfold dataBeat; (repeat' split) <;> simp
@[simp] theorem dataBeat_w : (b.dataBeat p v).w = b.w := by
  unfold dataBeat; (repeat' split) <;> simp

end dataBeat

section endBuffer

variable (b : Block) (p : Params)

@[simp] theorem endBuffer_route : (b.endBuffer p).route = b.route := by
  unfold endBuffer; (repeat' split) <;> rfl
@[simp] theorem endBuffer_clamp : (b.endBuffer p).clamp = b.clamp := by
  unfold endBuffer; (repeat' split) <;> rfl
@[simp] theorem endBuffer_cancel : (b.endBuffer p).cancel = b.cancel := by
  unfold endBuffer; (repeat' split) <;> rfl
@[simp] theorem endBuffer_sinkErr : (b.endBuffer p).sinkErr = b.sinkErr := by
  unfold endBuffer; (repeat' split) <;> rfl
@[simp] theorem endBuffer_peak : (b.endBuffer p).peak = b.peak := by
  unfold endBuffer; (repeat' split) <;> rfl
@[simp] theorem endBuffer_doneCnt : (b.endBuffer p).doneCnt = b.doneCnt := by
  unfold endBuffer; (repeat' split) <;> rfl
@[simp] theorem endBuffer_lastAcc : (b.endBuffer p).lastAcc = b.lastAcc := by
  unfold endBuffer; (repeat' split) <;> rfl
@[simp] theorem endBuffer_invCancel : (b.endBuffer p).invCancel = b.invCancel := by
  unfold endBuffer; (repeat' split) <;> rfl
@[simp] theorem endBuffer_invRoute : (b.endBuffer p).invRoute = b.invRoute := by
  unfold endBuffer; (repeat' split) <;> rfl
@[simp] theorem endBuffer_invClamp : (b.endBuffer p).invClamp = b.invClamp := by
  unfold endBuffer; (repeat' split) <;> rfl
@[simp] theorem endBuffer_n : (b.endBuffer p).n = b.n := by
  unfold endBuffer; (repeat' split) <;> rfl
@[simp] theorem endBuffer_overLen : (b.endBuffer p).overLen = b.overLen := by
  unfold endBuffer; (repeat' split) <;> rfl
@[simp] theorem endBuffer_accI : (b.endBuffer p).accI = b.accI := by
  unfold endBuffer; (repeat' split) <;> rfl
@[simp] theorem endBuffer_accQ : (b.endBuffer p).accQ = b.accQ := by
  unfold endBuffer; (repeat' split) <;> rfl
@[simp] theorem endBuffer_emax : (b.endBuffer p).emax = b.emax := by
  unfold endBuffer; (repeat' split) <;> rfl
@[simp] theorem endBuffer_outbuf : (b.endBuffer p).outbuf = b.outbuf := by
  unfold endBuffer; (repeat' split) <;> rfl

end endBuffer

section endSink

variable (b : Block) (p : Params) (acc : Nat)

@[simp] theorem endSink_route : (b.endSink p acc).route = b.route := rfl
@[simp] theorem endSink_clamp : (b.endSink p acc).clamp = b.clamp := rfl
@[simp] theorem endSink_cancel : (b.endSink p acc).cancel = b.cancel := rfl
@[simp] theorem endSink_lenErr : (b.endSink p acc).lenErr = b.lenErr := rfl
@[simp] theorem endSink_sinkErr : (b.endSink p acc).sinkErr = b.sinkErr := rfl
@[simp] theorem endSink_peak : (b.endSink p acc).peak = magBits p.scale b.emax := rfl
@[simp] theorem endSink_doneCnt : (b.endSink p acc).doneCnt = b.doneCnt + 1 := rfl
@[simp] theorem endSink_lastAcc : (b.endSink p acc).lastAcc = BitVec.ofNat 32 acc := rfl
@[simp] theorem endSink_phase : (b.endSink p acc).phase = .idle := rfl
@[simp] theorem endSink_invCancel : (b.endSink p acc).invCancel = b.invCancel := rfl
@[simp] theorem endSink_invRoute : (b.endSink p acc).invRoute = b.invRoute := rfl
@[simp] theorem endSink_invClamp : (b.endSink p acc).invClamp = b.invClamp := rfl
@[simp] theorem endSink_n : (b.endSink p acc).n = b.n := rfl
@[simp] theorem endSink_overLen : (b.endSink p acc).overLen = b.overLen := rfl
@[simp] theorem endSink_accI : (b.endSink p acc).accI = b.accI := rfl
@[simp] theorem endSink_accQ : (b.endSink p acc).accQ = b.accQ := rfl
@[simp] theorem endSink_emax : (b.endSink p acc).emax = b.emax := rfl
@[simp] theorem endSink_w : (b.endSink p acc).w = b.w := rfl
@[simp] theorem endSink_outbuf : (b.endSink p acc).outbuf = b.outbuf := rfl

end endSink

section acceptFrame

variable (b : Block) (p : Params)

@[simp] theorem acceptFrame_route : (b.acceptFrame p).route = b.route := by unfold acceptFrame; split <;> rfl
@[simp] theorem acceptFrame_clamp : (b.acceptFrame p).clamp = b.clamp := by unfold acceptFrame; split <;> rfl
@[simp] theorem acceptFrame_cancel : (b.acceptFrame p).cancel = b.cancel := by unfold acceptFrame; split <;> rfl
@[simp] theorem acceptFrame_lenErr : (b.acceptFrame p).lenErr = b.lenErr := by unfold acceptFrame; split <;> rfl
@[simp] theorem acceptFrame_sinkErr : (b.acceptFrame p).sinkErr = b.sinkErr := by unfold acceptFrame; split <;> rfl
@[simp] theorem acceptFrame_invCancel : (b.acceptFrame p).invCancel = b.invCancel := by unfold acceptFrame; split <;> rfl
@[simp] theorem acceptFrame_invRoute : (b.acceptFrame p).invRoute = b.invRoute := by unfold acceptFrame; split <;> rfl
@[simp] theorem acceptFrame_invClamp : (b.acceptFrame p).invClamp = b.invClamp := by unfold acceptFrame; split <;> rfl
@[simp] theorem acceptFrame_n : (b.acceptFrame p).n = b.n := by unfold acceptFrame; split <;> rfl
@[simp] theorem acceptFrame_overLen : (b.acceptFrame p).overLen = b.overLen := by unfold acceptFrame; split <;> rfl
@[simp] theorem acceptFrame_accI : (b.acceptFrame p).accI = b.accI := by unfold acceptFrame; split <;> rfl
@[simp] theorem acceptFrame_accQ : (b.acceptFrame p).accQ = b.accQ := by unfold acceptFrame; split <;> rfl
@[simp] theorem acceptFrame_emax : (b.acceptFrame p).emax = b.emax := by unfold acceptFrame; split <;> rfl
@[simp] theorem acceptFrame_w : (b.acceptFrame p).w = b.w + 1 := by unfold acceptFrame; split <;> rfl
@[simp] theorem acceptFrame_outbuf : (b.acceptFrame p).outbuf = b.outbuf := by unfold acceptFrame; split <;> rfl

end acceptFrame

end Block

namespace State

variable (s : State)

@[simp] theorem withBlock_cfg (b : Block) : (s.withBlock b).cfg = s.cfg := rfl
@[simp] theorem withBlock_block (b : Block) : (s.withBlock b).block = b := rfl
@[simp] theorem withBlock_env (b : Block) : (s.withBlock b).env = s.env := rfl
@[simp] theorem answer_cfg (v : Word) : (s.answer v).cfg = s.cfg := rfl
@[simp] theorem answer_block (v : Word) : (s.answer v).block = s.block := rfl
@[simp] theorem answer_env (v : Word) : (s.answer v).env = { s.env with hostGot := s.env.hostGot ++ [v] } := rfl
@[simp] theorem deliver_cfg : s.deliver.cfg = s.cfg := rfl
@[simp] theorem deliver_block : s.deliver.block = s.block := rfl
@[simp] theorem deliver_env : s.deliver.env = { s.env with sinkGot := s.env.sinkGot ++ s.block.snkData.toList } := rfl
@[simp] theorem turn_cfg (later : List Port) : (s.turn later).cfg = s.cfg := rfl
@[simp] theorem turn_block (later : List Port) : (s.turn later).block = s.block := rfl
@[simp] theorem turn_env (later : List Port) : (s.turn later).env = { s.env with turns := later } := rfl
@[simp] theorem take_cfg (p : Port) : (s.take p).cfg = s.cfg := rfl
@[simp] theorem take_block (p : Port) : (s.take p).block = s.block := rfl
@[simp] theorem take_env (p : Port) : (s.take p).env = s.env.taken p := rfl
@[simp] theorem takeIfReady_cfg (p : Port) : (s.takeIfReady p).cfg = s.cfg := by unfold takeIfReady; split <;> rfl
@[simp] theorem takeIfReady_block (p : Port) : (s.takeIfReady p).block = s.block := by
  unfold takeIfReady; split <;> rfl

end State

namespace Env

variable (e : Env) (p : Port)

@[simp] theorem taken_turns : (e.taken p).turns = e.turns := by cases p <;> rfl
@[simp] theorem taken_hostGot : (e.taken p).hostGot = e.hostGot := by cases p <;> rfl
@[simp] theorem taken_sinkGot : (e.taken p).sinkGot = e.sinkGot := by cases p <;> rfl

/-- A word put in front is the one offered. -/
@[simp] theorem offered_offer (o : Offer) : (e.offer o).offered o.port = some o := by cases o <;> rfl

/-- Taking the word put in front leaves what was offered before. -/
@[simp] theorem taken_offer (o : Offer) : (e.offer o).taken o.port = e := by cases o <;> rfl

end Env

end Sys2Proof.Machine
end

