-- ==== Sys2Proof/Laws/Ops.lean ====
section
/-! SUPPORT. For each shared operation, one lemma that says once everything it can do. -/

namespace Sys2Proof

@[simp] theorem sampleCode_odd (v : Byte) : sampleCode v % 2 = 1 := by unfold sampleCode; omega

theorem sampleCode_abs_le (v : Byte) : |sampleCode v| ≤ 255 := by
  have := v.isLt
  unfold sampleCode
  rw [abs_le]
  omega

theorem legal_iff (p : Params) :
    p.legal = true ↔ 1 ≤ p.ratio ∧ 1 ≤ p.frames ∧ 2 * p.frames * p.ratio ≤ 2 ^ 32 - 1 := by
  simp [Params.legal, and_assoc]

/-- In a legal block a buffer has at least two bytes, and a frame at least two. -/
theorem legal_lengths {p : Params} (h : p.legal = true) : 2 ≤ p.rawLen ∧ 2 ≤ p.frameLen := by
  obtain ⟨hr, hf, -⟩ := (legal_iff p).1 h
  have : 1 ≤ p.frames * p.ratio := Nat.mul_pos hf hr
  simp only [Params.rawLen, Params.frameLen, Nat.mul_assoc]
  omega

/-- A buffer is `FRAMES` frames long (`20_memory.md` R51). -/
theorem rawLen_eq (p : Params) : p.rawLen = p.frames * p.frameLen := by
  simp only [Params.rawLen, Params.frameLen]; ring

theorem endsFrame_iff (p : Params) (n : Nat) : p.endsFrame n = true ↔ n % p.frameLen = p.frameLen - 1 := by
  simp [Params.endsFrame]

namespace Machine

/-- The energy is the sum of the squares, exactly (`42_magnitude.md` R140). -/
theorem energy_cast (x y : Int) : (energy x y : Int) = x * x + y * y := by
  unfold energy
  exact Int.toNat_of_nonneg (add_nonneg (mul_self_nonneg x) (mul_self_nonneg y))

/-- Sums within `d` give an energy within `2*d^2` (`42_magnitude.md` R140). -/
theorem energy_le {x y : Int} {d : Nat} (hx : |x| ≤ d) (hy : |y| ≤ d) : energy x y ≤ 2 * d ^ 2 := by
  have h1 : x * x ≤ (d : Int) * d := by nlinarith [abs_le.1 hx]
  have h2 : y * y ≤ (d : Int) * d := by nlinarith [abs_le.1 hy]
  zify
  rw [energy_cast]
  nlinarith

namespace Block

variable (p : Params) (b : Block) (v : Byte)

@[simp] theorem iqReady_iff : b.iqReady = true ↔ b.phase ≠ .sink := by simp [iqReady]

@[simp] theorem snkValid_iff : b.snkValid = true ↔ b.phase = .sink := by simp [snkValid]

theorem startIfIdle_cases :
    (b.phase = .idle ∧ b.startIfIdle = b.startInvocation) ∨ (b.phase ≠ .idle ∧ b.startIfIdle = b) := by
  unfold startIfIdle
  by_cases h : b.phase = .idle <;> simp [h]

theorem useByte_cases :
    (p.endsFrame b.n = true ∧
      b.useByte p v = { (b.accumulate b.n v).completeFrame p (b.n / p.frameLen) with n := b.n + 1 }) ∨
    (p.endsFrame b.n = false ∧ b.useByte p v = { b.accumulate b.n v with n := b.n + 1 }) := by
  unfold useByte
  cases h : p.endsFrame b.n <;> simp

/-- Everything a beat's byte can do: nothing in a cancelled invocation, be used within the length, or be excess. -/
theorem dataBeat_cases :
    (b.invCancel = true ∧ b.dataBeat p v = b) ∨
    (b.invCancel = false ∧ b.n < p.rawLen ∧ b.dataBeat p v = b.useByte p v) ∨
    (b.invCancel = false ∧ p.rawLen ≤ b.n ∧ b.dataBeat p v = { b with overLen := true }) := by
  unfold dataBeat
  cases hc : b.invCancel
  · by_cases hn : b.n < p.rawLen
    · simp [hn]
    · simp [hn, Nat.le_of_not_lt hn]
  · simp

/-- Everything the end of a buffer can do: cancelled, of the wrong length, or valid. -/
theorem endBuffer_cases :
    (b.invCancel = true ∧ b.endBuffer p = { b with phase := .idle }) ∨
    (b.invCancel = false ∧ (b.overLen = true ∨ b.n ≠ p.rawLen) ∧
      b.endBuffer p = { b with lenErr := true, phase := .idle }) ∨
    (b.invCancel = false ∧ b.overLen = false ∧ b.n = p.rawLen ∧
      b.endBuffer p = { b with w := 0, phase := .sink }) := by
  unfold endBuffer
  cases hc : b.invCancel
  · by_cases h : b.overLen = true ∨ b.n ≠ p.rawLen
    · exact .inr (.inl ⟨rfl, h, by simp [h, hc, raiseLenErr]⟩)
    · refine .inr (.inr ⟨rfl, ?_, ?_, by simp [h]⟩) <;> simp_all
  · simp

/-- Everything an accepted frame can do to the block: move on, or end the sink phase. -/
theorem acceptFrame_cases :
    (b.w + 1 ≠ p.frames ∧ b.acceptFrame p = { b with w := b.w + 1 }) ∨
    (b.w + 1 = p.frames ∧ b.acceptFrame p = { b with w := b.w + 1 }.endSink p p.frames) := by
  unfold acceptFrame
  by_cases h : b.w + 1 = p.frames <;> simp [h]

theorem set_outbuf_length (j : Nat) (f : Frame) : (b.outbuf.set j f).length = b.outbuf.length := by simp

/-- Using a byte keeps the number of frames. -/
@[simp] theorem useByte_outbuf_length : (b.useByte p v).outbuf.length = b.outbuf.length := by
  obtain ⟨-, h⟩ | ⟨-, h⟩ := useByte_cases p b v <;> simp [h]

/-- A beat keeps the number of frames. -/
@[simp] theorem dataBeat_outbuf_length : (b.dataBeat p v).outbuf.length = b.outbuf.length := by
  obtain ⟨-, h⟩ | ⟨-, -, h⟩ | ⟨-, -, h⟩ := dataBeat_cases p b v <;> simp [h]

/-- What a beat does to the count of bytes used (`10_state.md` R32). -/
theorem dataBeat_n :
    (b.dataBeat p v).n = if b.invCancel = false ∧ b.n < p.rawLen then b.n + 1 else b.n := by
  obtain ⟨hc, h⟩ | ⟨hc, hn, h⟩ | ⟨hc, hn, h⟩ := dataBeat_cases p b v
  · simp [h, hc]
  · simp [h, hc, hn]
  · simp [h, hc, Nat.not_lt.2 hn]

/-- What a beat does to `over` (`41_decimation.md` R124). -/
theorem dataBeat_overLen :
    (b.dataBeat p v).overLen = if b.invCancel = false ∧ p.rawLen ≤ b.n then true else b.overLen := by
  obtain ⟨hc, h⟩ | ⟨hc, hn, h⟩ | ⟨hc, hn, h⟩ := dataBeat_cases p b v
  · simp [h, hc]
  · simp [h, Nat.not_le.2 hn]
  · simp [h, hc, hn]

end Block

end Machine

end Sys2Proof
end

