-- ==== Sys2Proof/Laws/Encoding.lean ====
section
/-! SUPPORT. The fields of a request word, read back from the word (`30_encoding.md` R70, R75), and the words a row's
mask selects. -/

namespace Sys2Proof

@[simp] theorem request_data (we : BitVec 1) (off : Byte) (d : Word) :
    (request we off d).extractLsb' 0 32 = d := by
  apply BitVec.eq_of_getLsbD_eq
  intro i hi
  rw [request, BitVec.getLsbD_extractLsb', BitVec.getLsbD_append]
  simp [hi]

@[simp] theorem request_address (we : BitVec 1) (off : Byte) (d : Word) :
    (request we off d).extractLsb' 32 8 = off := by
  apply BitVec.eq_of_getLsbD_eq
  intro i hi
  rw [request, BitVec.getLsbD_extractLsb', BitVec.getLsbD_append, BitVec.getLsbD_append]
  simp [hi]

/-- `WE` of a request, as `decodeCtl` reads it. -/
theorem request_write (we : BitVec 1) (off : Byte) (d : Word) : (request we off d).getLsbD 40 = we.getLsbD 0 := by
  rw [request, BitVec.getLsbD_append, BitVec.getLsbD_append]
  simp

/-- A request is its three fields (`30_encoding.md` R70). -/
theorem request_fields (r : BitVec 41) :
    request (r.extractLsb' 40 1) (r.extractLsb' 32 8) (r.extractLsb' 0 32) = r := by
  apply BitVec.eq_of_getLsbD_eq
  intro i hi
  rw [request, BitVec.getLsbD_append, BitVec.getLsbD_append]
  simp only [BitVec.getLsbD_extractLsb']
  by_cases h1 : i < 32
  · simp [h1]
  · by_cases h2 : i - 32 < 8
    · simp [h1, h2, show 32 + (i - 32) = i by omega]
    · have : i = 40 := by omega
      subst this
      simp

@[simp] theorem decodeCtl_read (off : Byte) (d : Word) : decodeCtl (request 0 off d) = decodeRead off d := by
  rw [decodeCtl, request_write, request_address, request_data]; rfl

@[simp] theorem decodeCtl_write (off : Byte) (d : Word) : decodeCtl (request 1 off d) = decodeWrite off d := by
  rw [decodeCtl, request_write, request_address, request_data]; rfl

@[simp] theorem namedOffset_register (reg : BitVec 6) (a : BitVec 2) :
    (namedOffset reg a).extractLsb' 2 6 = reg := by
  revert reg a; decide +kernel

@[simp] theorem namedOffset_ignored (reg : BitVec 6) (a : BitVec 2) : (namedOffset reg a).extractLsb' 0 2 = a := by
  revert reg a; decide +kernel

/-- An address is its register number and its ignored bits (`30_encoding.md` R75). -/
theorem namedOffset_fields (off : Byte) : namedOffset (off.extractLsb' 2 6) (off.extractLsb' 0 2) = off := by
  revert off; decide +kernel

/-- A mask of the bits above `WDATA` leaves the data out. -/
theorem masked_request (we : BitVec 1) (off : Byte) (m c : BitVec 9) (d : Word) (h : (we ++ off) &&& m = c) :
    request we off d &&& (m ++ 0#32) = c ++ 0#32 := by
  rw [request, BitVec.and_append, h, BitVec.and_zero]

end Sys2Proof
end

