-- ==== Sys2Proof/Laws/Magnitude.lean ====
section
/-! SUPPORT. What the loops of the magnitude unit compute (`42_magnitude.md` R142). -/

namespace Sys2Proof.Machine

theorem isqrtFrom_spec (x k r : Nat) (hr : r * r ≤ x) (hk : x < (r + 2 ^ k) * (r + 2 ^ k)) :
    isqrtFrom x k r * isqrtFrom x k r ≤ x ∧ x < (isqrtFrom x k r + 1) * (isqrtFrom x k r + 1) := by
  induction k generalizing r with
  | zero => simpa [isqrtFrom] using ⟨hr, hk⟩
  | succ k ih =>
    unfold isqrtFrom
    split
    · rename_i h
      refine ih _ h ?_
      rwa [show r + 2 ^ k + 2 ^ k = r + 2 ^ (k + 1) by ring]
    · rename_i h
      exact ih _ hr (by omega)

/-- `isqrt(x)` is the largest `r` with `r*r <= x` (`00_scope.md` R10). -/
theorem isqrt_spec (x : Nat) : isqrt x * isqrt x ≤ x ∧ x < (isqrt x + 1) * (isqrt x + 1) := by
  refine isqrtFrom_spec x _ 0 (by simp) ?_
  have h1 : x < 2 ^ (x.log2 + 1) := Nat.lt_log2_self
  have h2 : 2 ^ (x.log2 + 1) ≤ 2 ^ (2 * (x.log2 / 2 + 1)) := Nat.pow_le_pow_right (by omega) (by omega)
  calc x < 2 ^ (2 * (x.log2 / 2 + 1)) := lt_of_lt_of_le h1 h2
    _ = (0 + 2 ^ (x.log2 / 2 + 1)) * (0 + 2 ^ (x.log2 / 2 + 1)) := by rw [two_mul, pow_add, Nat.zero_add]

theorem exponentFrom_spec (e dd fuel k : Nat) (h : dd ≤ e * 4 ^ (k + fuel))
    (hk : k = 0 ∨ e * 4 ^ (k - 1) < dd) :
    dd ≤ e * 4 ^ exponentFrom e dd fuel k ∧
      (exponentFrom e dd fuel k = 0 ∨ e * 4 ^ (exponentFrom e dd fuel k - 1) < dd) := by
  induction fuel generalizing k with
  | zero => exact ⟨h, hk⟩
  | succ fuel ih =>
    unfold exponentFrom
    split
    · rename_i hlt
      exact ih (k + 1) (by rwa [show k + 1 + fuel = k + (fuel + 1) by omega]) (.inr (by simpa using hlt))
    · rename_i hge
      exact ⟨Nat.le_of_not_lt hge, hk⟩

/-- `-e` of `MagBits` is the least `k` with `D*D <= E * 4^k` (`42_magnitude.md` R142). -/
theorem negExponent_spec {e : Nat} (dd : Nat) (he : 1 ≤ e) :
    dd ≤ e * 4 ^ negExponent e dd ∧
      (negExponent e dd = 0 ∨ e * 4 ^ (negExponent e dd - 1) < dd) := by
  refine exponentFrom_spec e dd _ 0 ?_ (.inl rfl)
  have h1 : dd < 2 ^ (dd.log2 + 1) := Nat.lt_log2_self
  have h2 : 2 ^ (dd.log2 + 1) ≤ 2 ^ (2 * (dd.log2 / 2 + 1)) := Nat.pow_le_pow_right (by omega) (by omega)
  have h3 : (4 : Nat) ^ (0 + (dd.log2 / 2 + 1)) = 2 ^ (2 * (dd.log2 / 2 + 1)) := by
    rw [Nat.zero_add, pow_mul]; rfl
  rw [h3]
  calc dd ≤ 1 * 2 ^ (2 * (dd.log2 / 2 + 1)) := by omega
    _ ≤ e * 2 ^ (2 * (dd.log2 / 2 + 1)) := Nat.mul_le_mul_right _ he

/-- The least exponent is the only one with its two properties. -/
theorem negExponent_unique {e dd k : Nat} (he : 1 ≤ e) (h1 : dd ≤ e * 4 ^ k)
    (h2 : k = 0 ∨ e * 4 ^ (k - 1) < dd) : negExponent e dd = k := by
  obtain ⟨h3, h4⟩ := negExponent_spec dd he
  have mono : ∀ a b : Nat, a ≤ b → e * 4 ^ a ≤ e * 4 ^ b := fun a b hab =>
    Nat.mul_le_mul_left e (Nat.pow_le_pow_right (by omega) hab)
  generalize negExponent e dd = m at h3 h4
  rcases Nat.lt_trichotomy m k with hlt | heq | hgt
  · have := mono m (k - 1) (by omega)
    omega
  · exact heq
  · have := mono k (m - 1) (by omega)
    omega

/-- Rounding moves the truncated significand up by at most one. -/
theorem roundSignificand_cases (m num den : Nat) :
    (roundSignificand m num den = m ∧ 4 * num ≤ (2 * m + 1) ^ 2 * den ∧
      ((2 * m + 1) ^ 2 * den = 4 * num → m % 2 = 0)) ∨
    (roundSignificand m num den = m + 1 ∧ (2 * m + 1) ^ 2 * den ≤ 4 * num ∧
      ((2 * m + 1) ^ 2 * den = 4 * num → m % 2 = 1)) := by
  unfold roundSignificand
  by_cases h : (2 * m + 1) ^ 2 * den < 4 * num ∨ ((2 * m + 1) ^ 2 * den = 4 * num ∧ m % 2 = 1)
  · rw [if_pos h]
    right
    refine ⟨rfl, ?_, ?_⟩
    · omega
    · intro he
      rcases h with h | h
      · omega
      · exact h.2
  · rw [if_neg h]
    left
    refine ⟨rfl, ?_, ?_⟩
    · omega
    · intro he
      by_contra hm
      exact h (.inr ⟨he, by omega⟩)

/-- A normal pattern as a number: the biased exponent above the fraction (`42_magnitude.md` R142). -/
theorem packBinary32_toNat {k m : Nat} (hk : k ≤ 126) (hm : 2 ^ 23 ≤ m) (hm' : m < 2 ^ 24) :
    (packBinary32 (-(k : Int)) m).toNat = (127 - k) * 2 ^ 23 + (m - 2 ^ 23) := by
  have hcast : -(k : Int) + 127 = ((127 - k : Nat) : Int) := by omega
  have hlt : (127 - k) * 2 ^ 23 < 2 ^ 32 := by omega
  rw [packBinary32, hcast, BitVec.ofInt_natCast, BitVec.toNat_or, BitVec.toNat_shiftLeft, BitVec.toNat_ofNat,
    BitVec.toNat_ofNat, Nat.mod_eq_of_lt (show 127 - k < 2 ^ 32 by omega),
    Nat.mod_eq_of_lt (show m - 2 ^ 23 < 2 ^ 32 by omega), Nat.shiftLeft_eq, Nat.mod_eq_of_lt hlt, ← Nat.shiftLeft_eq,
    ← Nat.shiftLeft_add_eq_or_of_lt (show m - 2 ^ 23 < 2 ^ 23 by omega)]

end Sys2Proof.Machine
end

