-- ==== Sys2Proof/Laws/PerInstr.lean ====
section
/-! SUPPORT. Per-instruction statements about the instructions as terms. Family `CoveredByItsRow`: a row of the operation
map with the instruction's own mnemonic covers its encoding (`30_encoding.md` R79). -/

namespace Sys2Proof.Laws.CoveredByItsRow

/-- A row with the instruction's mnemonic covers the instruction's encoding. -/
def Statement (i : Instr) : Prop :=
  i.wellFormed = true → ∃ r ∈ operationMap, r.mnemonic = i.mnemonic ∧ r.covers (encode i) = true

/-- A row of the control port covers a request whose upper nine bits its mask selects. -/
theorem covers_request (mn : String) {we : BitVec 1} {off : Byte} (m c : BitVec 9) (d : Word)
    (h : (we ++ off) &&& m = c) : Row.covers ⟨mn, .ctl, c ++ 0#32, m ++ 0#32⟩ (.ctl (request we off d)) = true := by
  simp [Row.covers, Offer.port, Offer.bits, masked_request we off m c d h]

/-- The `k`-th row of the map is a row of the map. -/
theorem row_mem (k : Fin 27) : operationMap[k.val]'k.isLt ∈ operationMap := List.getElem_mem _

/-- The upper nine bits of every request of a named register, under the mask of its row. -/
theorem named_bits (we : BitVec 1) (reg : BitVec 6) (a : BitVec 2) :
    (we ++ namedOffset reg a) &&& 0x1FC#9 = we ++ namedOffset reg 0 := by
  revert we reg a; decide +kernel

/-- The upper nine bits of every request of a reserved offset, under the masks of the three rows. -/
theorem reserved_bits (we : BitVec 1) (off : Byte) :
    (inRsvd20 off = true → (we ++ off) &&& 0x1E0#9 = we ++ 0x20#8) ∧
    (inRsvd40 off = true → (we ++ off) &&& 0x1C0#9 = we ++ 0x40#8) ∧
    (inRsvd80 off = true → (we ++ off) &&& 0x180#9 = we ++ 0x80#8) := by
  revert we off; decide +kernel

/-- The bit `LAST` of every beat, under the mask of its rows. -/
theorem beat_covered (mn : String) (last : BitVec 1) (v : Byte) :
    Row.covers ⟨mn, .iq, (last ++ 0#8).setWidth 41, 0x100⟩ (.iq (last ++ v)) = true := by
  have h : ∀ (last : BitVec 1) (v : Byte), (last ++ v).setWidth 41 &&& 0x100#41 = (last ++ 0#8).setWidth 41 := by
    decide +kernel
  simp [Row.covers, Offer.port, Offer.bits, h]

theorem ctlRdCtrl (a : BitVec 2) (d : Word) : Statement (.ctlRdCtrl a d) := fun _ =>
  ⟨_, row_mem 0, rfl, covers_request "CTL_RD_CTRL" 0x1fc 0x0 d (named_bits _ _ a)⟩

theorem ctlWrCtrl (a : BitVec 2) (d : Word) : Statement (.ctlWrCtrl a d) := fun _ =>
  ⟨_, row_mem 1, rfl, covers_request "CTL_WR_CTRL" 0x1fc 0x100 d (named_bits _ _ a)⟩

theorem ctlRdStatus (a : BitVec 2) (d : Word) : Statement (.ctlRdStatus a d) := fun _ =>
  ⟨_, row_mem 2, rfl, covers_request "CTL_RD_STATUS" 0x1fc 0x4 d (named_bits _ _ a)⟩

theorem ctlWrStatus (a : BitVec 2) (d : Word) : Statement (.ctlWrStatus a d) := fun _ =>
  ⟨_, row_mem 3, rfl, covers_request "CTL_WR_STATUS" 0x1fc 0x104 d (named_bits _ _ a)⟩

theorem ctlRdShutdown (a : BitVec 2) (d : Word) : Statement (.ctlRdShutdown a d) := fun _ =>
  ⟨_, row_mem 4, rfl, covers_request "CTL_RD_SHUTDOWN" 0x1fc 0x8 d (named_bits _ _ a)⟩

theorem ctlWrShutdown (a : BitVec 2) (d : Word) : Statement (.ctlWrShutdown a d) := fun _ =>
  ⟨_, row_mem 5, rfl, covers_request "CTL_WR_SHUTDOWN" 0x1fc 0x108 d (named_bits _ _ a)⟩

theorem ctlRdPeak (a : BitVec 2) (d : Word) : Statement (.ctlRdPeak a d) := fun _ =>
  ⟨_, row_mem 6, rfl, covers_request "CTL_RD_PEAK" 0x1fc 0xc d (named_bits _ _ a)⟩

theorem ctlWrPeak (a : BitVec 2) (d : Word) : Statement (.ctlWrPeak a d) := fun _ =>
  ⟨_, row_mem 7, rfl, covers_request "CTL_WR_PEAK" 0x1fc 0x10c d (named_bits _ _ a)⟩

theorem ctlRdDoneCnt (a : BitVec 2) (d : Word) : Statement (.ctlRdDoneCnt a d) := fun _ =>
  ⟨_, row_mem 8, rfl, covers_request "CTL_RD_DONE_CNT" 0x1fc 0x10 d (named_bits _ _ a)⟩

theorem ctlWrDoneCnt (a : BitVec 2) (d : Word) : Statement (.ctlWrDoneCnt a d) := fun _ =>
  ⟨_, row_mem 9, rfl, covers_request "CTL_WR_DONE_CNT" 0x1fc 0x110 d (named_bits _ _ a)⟩

theorem ctlRdLastAcc (a : BitVec 2) (d : Word) : Statement (.ctlRdLastAcc a d) := fun _ =>
  ⟨_, row_mem 10, rfl, covers_request "CTL_RD_LAST_ACC" 0x1fc 0x14 d (named_bits _ _ a)⟩

theorem ctlWrLastAcc (a : BitVec 2) (d : Word) : Statement (.ctlWrLastAcc a d) := fun _ =>
  ⟨_, row_mem 11, rfl, covers_request "CTL_WR_LAST_ACC" 0x1fc 0x114 d (named_bits _ _ a)⟩

theorem ctlRdCfgRatio (a : BitVec 2) (d : Word) : Statement (.ctlRdCfgRatio a d) := fun _ =>
  ⟨_, row_mem 12, rfl, covers_request "CTL_RD_CFG_RATIO" 0x1fc 0x18 d (named_bits _ _ a)⟩

theorem ctlWrCfgRatio (a : BitVec 2) (d : Word) : Statement (.ctlWrCfgRatio a d) := fun _ =>
  ⟨_, row_mem 13, rfl, covers_request "CTL_WR_CFG_RATIO" 0x1fc 0x118 d (named_bits _ _ a)⟩

theorem ctlRdCfgFrames (a : BitVec 2) (d : Word) : Statement (.ctlRdCfgFrames a d) := fun _ =>
  ⟨_, row_mem 14, rfl, covers_request "CTL_RD_CFG_FRAMES" 0x1fc 0x1c d (named_bits _ _ a)⟩

theorem ctlWrCfgFrames (a : BitVec 2) (d : Word) : Statement (.ctlWrCfgFrames a d) := fun _ =>
  ⟨_, row_mem 15, rfl, covers_request "CTL_WR_CFG_FRAMES" 0x1fc 0x11c d (named_bits _ _ a)⟩

theorem ctlRdRsvd20 (off : Byte) (d : Word) : Statement (.ctlRdRsvd20 off d) := fun h =>
  ⟨_, row_mem 16, rfl, covers_request "CTL_RD_RSVD_20" 0x1e0 0x20 d ((reserved_bits _ off).1 h)⟩

theorem ctlRdRsvd40 (off : Byte) (d : Word) : Statement (.ctlRdRsvd40 off d) := fun h =>
  ⟨_, row_mem 17, rfl, covers_request "CTL_RD_RSVD_40" 0x1c0 0x40 d ((reserved_bits _ off).2.1 h)⟩

theorem ctlRdRsvd80 (off : Byte) (d : Word) : Statement (.ctlRdRsvd80 off d) := fun h =>
  ⟨_, row_mem 18, rfl, covers_request "CTL_RD_RSVD_80" 0x180 0x80 d ((reserved_bits _ off).2.2 h)⟩

theorem ctlWrRsvd20 (off : Byte) (d : Word) : Statement (.ctlWrRsvd20 off d) := fun h =>
  ⟨_, row_mem 19, rfl, covers_request "CTL_WR_RSVD_20" 0x1e0 0x120 d ((reserved_bits _ off).1 h)⟩

theorem ctlWrRsvd40 (off : Byte) (d : Word) : Statement (.ctlWrRsvd40 off d) := fun h =>
  ⟨_, row_mem 20, rfl, covers_request "CTL_WR_RSVD_40" 0x1c0 0x140 d ((reserved_bits _ off).2.1 h)⟩

theorem ctlWrRsvd80 (off : Byte) (d : Word) : Statement (.ctlWrRsvd80 off d) := fun h =>
  ⟨_, row_mem 21, rfl, covers_request "CTL_WR_RSVD_80" 0x180 0x180 d ((reserved_bits _ off).2.2 h)⟩

theorem iqBeat (v : Byte) : Statement (.iqBeat v) := fun _ =>
  ⟨_, row_mem 22, rfl, beat_covered "IQ_BEAT" 0 v⟩

theorem iqBeatLast (v : Byte) : Statement (.iqBeatLast v) := fun _ =>
  ⟨_, row_mem 23, rfl, beat_covered "IQ_BEAT_LAST" 1 v⟩

theorem snkAccept : Statement .snkAccept := fun _ =>
  ⟨_, row_mem 24, rfl, rfl⟩

theorem snkError (acc : BitVec 1) : Statement (.snkError acc) := fun _ =>
  ⟨_, row_mem 25, rfl, by revert acc; decide +kernel⟩

theorem rst : Statement .rst := fun _ =>
  ⟨_, row_mem 26, rfl, rfl⟩

end Sys2Proof.Laws.CoveredByItsRow
end

