-- ==== Sys2Proof/Laws/Step.lean ====
section
/-! SUPPORT. What a step can do, said once. -/

namespace Sys2Proof

/-- An operation is decoded on its own port (`30_encoding.md` R70). -/
theorem decode_port {o : Offer} {i : Instr} (h : decode o = .operation i) : i.port = o.port := by
  cases o with
  | ctl r =>
    simp only [decode, Decoded.operation.injEq, decodeCtl, decodeRead, decodeWrite] at h
    subst h
    repeat' split
    all_goals rfl
  | iq b =>
    simp only [decode, Decoded.operation.injEq, decodeIq] at h
    subst h
    split <;> rfl
  | snk r =>
    simp only [decode, decodeSnk] at h
    split at h
    · cases h; rfl
    · split at h <;> cases h; rfl
  | rst l =>
    simp only [decode, decodeRst] at h
    split at h <;> cases h; rfl

namespace Machine

/-- The word offered on a port stands on that port. -/
theorem offered_port {e : Env} {p : Port} {o : Offer} (h : e.offered p = some o) : o.port = p := by
  cases p <;> simp only [Env.offered, Option.map_eq_some_iff] at h <;> obtain ⟨_, -, rfl⟩ := h <;> rfl

/-- Everything a step can be: no turn, a turn without an operation, or an operation that runs. -/
theorem step_cases (s : State) :
    (s.env.turns = [] ∧ step s = .next s) ∨
    ∃ p later, s.env.turns = p :: later ∧
      ((s.env.offered p = none ∧ step s = .next (s.turn later)) ∨
       (∃ o why, s.env.offered p = some o ∧ decode o = .noOperation why ∧
          step s = .next ((s.turn later).take p)) ∨
       ∃ o i, s.env.offered p = some o ∧ decode o = .operation i ∧ i.port = p ∧
          step s = exec i ((s.turn later).takeIfReady p)) := by
  cases ht : s.env.turns with
  | nil => exact .inl ⟨rfl, by simp [step, ht]⟩
  | cons p later =>
    refine .inr ⟨p, later, rfl, ?_⟩
    cases ho : s.env.offered p with
    | none => exact .inl ⟨rfl, by simp [step, ht, ho]⟩
    | some o =>
      cases hd : decode o with
      | noOperation why => exact .inr (.inl ⟨o, why, rfl, hd, by simp [step, ht, ho, hd]⟩)
      | operation i =>
        exact .inr (.inr ⟨o, i, rfl, hd, (decode_port hd).trans (offered_port ho), by simp [step, ht, ho, hd]⟩)

/-- A property of the parameters and the block that every operation keeps is kept by every step: the induction over
operations is done once here. -/
theorem step_keeps {P : Params → Block → Prop}
    (hexec : ∀ (i : Instr) (s t : State), P s.cfg s.block → exec i s = .next t → P t.cfg t.block)
    {s t : State} (hs : P s.cfg s.block) (h : step s = .next t) : P t.cfg t.block := by
  obtain ⟨-, e⟩ | ⟨p, later, -, ⟨-, e⟩ | ⟨_, _, -, -, e⟩ | ⟨_, i, -, -, -, e⟩⟩ := step_cases s
  · rw [e] at h; cases h; exact hs
  · rw [e] at h; cases h; exact hs
  · rw [e] at h; cases h; exact hs
  · exact hexec i _ t (by simpa using hs) (e ▸ h)

/-- Running two lists of operations one after the other. -/
theorem runOps_append {xs ys : List Instr} {s t : State} (h : runOps xs s = .next t) :
    runOps (xs ++ ys) s = runOps ys t := by
  induction xs generalizing s with
  | nil => cases h; rfl
  | cons i xs ih =>
    simp only [runOps, List.cons_append] at h ⊢
    cases hi : exec i s with
    | next u => rw [hi] at h; exact ih h
    | fault r => cases r
    | refused r => rw [hi] at h; cases h

end Machine

end Sys2Proof
end

