-- ==== Sys2Proof/Tests/Slice0.lean ====
section
/-! SUPPORT. Tests whose expected results come from the spec's own tables and examples, each about one step, and a witness
for the hypotheses of every statement that has some. -/

namespace Sys2Proof.Tests

open Sys2Proof.Machine

/-! ### Helpers -/

/-- `RATIO = 2`, `FRAMES = 2`, right after reset. -/
def small : State := State.resetWith { ratio := 2, frames := 2 }

/-- `RATIO = 1`, `FRAMES = 1`, right after reset. -/
def tiny : State := State.resetWith { ratio := 1, frames := 1 }

/-- The state after one operation. -/
def after (i : Instr) (s : State) : State :=
  match exec i s with
  | .next t => t
  | .fault _ => s
  | .refused _ => s

/-- The state after one step. -/
def stepped (s : State) : State :=
  match step s with
  | .next t => t
  | .fault _ => s
  | .refused _ => s

/-- A frame with the same word in both slots. -/
def twin (v : Word) : Frame := { left := v, right := v }

/-- `small` in `COLLECT`, having used `n` bytes with these sums. -/
def collecting (n : Nat) (accI accQ : Int) : State :=
  { small with block := { small.block with phase := .collect, n := n, accI := accI, accQ := accQ } }

/-- `RATIO = 1`, `FRAMES = 2`, in `SINK` with the frames of `buf 255, 255, 128, 128`
(`95_test_vectors.md` 2.4), frame `w` being offered. -/
def offering (w : Nat) : State :=
  let s := State.resetWith { ratio := 1, frames := 2 }
  { s with block := { s.block with
      phase := .sink, n := 4, w := w, emax := 130050, outbuf := [twin 0x3FB504F3, twin 0x3BB5BAAE] } }

/-- `tiny` in `SINK`, holding the frame of `buf 255, 127` (`95_test_vectors.md` P4). -/
def tinyOffering : State :=
  { tiny with block := { tiny.block with
      phase := .sink, n := 2, emax := 65026, outbuf := [twin 0x3F800041] } }

/-! ### Well-formedness: each check refuses an ill-formed term -/

theorem test_illFormed_offsets_refused :
    (Instr.ctlRdRsvd20 0x1F 0).wellFormed = false ∧ (Instr.ctlRdRsvd20 0x40 0).wellFormed = false ∧
    (Instr.ctlRdRsvd40 0x3F 0).wellFormed = false ∧ (Instr.ctlRdRsvd40 0x80 0).wellFormed = false ∧
    (Instr.ctlRdRsvd80 0x7F 0).wellFormed = false ∧
    (Instr.ctlWrRsvd20 0x1F 0).wellFormed = false ∧ (Instr.ctlWrRsvd20 0x40 0).wellFormed = false ∧
    (Instr.ctlWrRsvd40 0x3F 0).wellFormed = false ∧ (Instr.ctlWrRsvd40 0x80 0).wellFormed = false ∧
    (Instr.ctlWrRsvd80 0x7F 0).wellFormed = false := by decide

/-- `00_scope.md` R6: elaboration refuses `RATIO = 0`, `FRAMES = 0` and a product beyond the bound. -/
theorem test_elaboration_refuses_illegal :
    Params.elaborate 0 10 = none ∧ Params.elaborate 5 0 = none ∧ Params.elaborate 65536 32768 = none ∧
    Params.elaborate 65535 32768 = some { ratio := 65535, frames := 32768 } := by decide

/-! ### Decoding: every constructor's word, written out from `30_encoding.md` R79 -/

theorem test_decode_named_reads :
    decode (.ctl 0b0_000000_01_00000000000000000000000000000111) = .operation (.ctlRdCtrl 1 7) ∧
    decode (.ctl 0b0_000001_11_00000000000000000000000000000000) = .operation (.ctlRdStatus 3 0) ∧
    decode (.ctl 0b0_000010_00_00000000000000000000000000000000) = .operation (.ctlRdShutdown 0 0) ∧
    decode (.ctl 0b0_000011_10_00000000000000000000000000000001) = .operation (.ctlRdPeak 2 1) ∧
    decode (.ctl 0b0_000100_00_00000000000000000000000000000000) = .operation (.ctlRdDoneCnt 0 0) ∧
    decode (.ctl 0b0_000101_00_00000000000000000000000000000000) = .operation (.ctlRdLastAcc 0 0) ∧
    decode (.ctl 0b0_000110_00_00000000000000000000000000000000) = .operation (.ctlRdCfgRatio 0 0) ∧
    decode (.ctl 0b0_000111_00_00000000000000000000000000000000) = .operation (.ctlRdCfgFrames 0 0) := by decide

theorem test_decode_named_writes :
    decode (.ctl 0b1_000000_00_00000000000000000000000000000100) = .operation (.ctlWrCtrl 0 4) ∧
    decode (.ctl 0b1_000001_00_00000000000000000000000000001100) = .operation (.ctlWrStatus 0 0xC) ∧
    decode (.ctl 0b1_000010_00_00000000000000000000000000000001) = .operation (.ctlWrShutdown 0 1) ∧
    decode (.ctl 0b1_000011_01_10000000000000000000000000000000) = .operation (.ctlWrPeak 1 0x80000000) ∧
    decode (.ctl 0b1_000100_00_00000000000000000000000000000101) = .operation (.ctlWrDoneCnt 0 5) ∧
    decode (.ctl 0b1_000101_00_00000000000000000000000000000000) = .operation (.ctlWrLastAcc 0 0) ∧
    decode (.ctl 0b1_000110_00_00000000000000000000000000000000) = .operation (.ctlWrCfgRatio 0 0) ∧
    decode (.ctl 0b1_000111_00_00000000000000000000000000000000) = .operation (.ctlWrCfgFrames 0 0) := by decide

theorem test_decode_reserved :
    decode (.ctl 0b0_001_00000_00000000000000000000000000000000) = .operation (.ctlRdRsvd20 0x20 0) ∧
    decode (.ctl 0b0_001_11111_00000000000000000000000000000000) = .operation (.ctlRdRsvd20 0x3F 0) ∧
    decode (.ctl 0b0_01_000000_00000000000000000000000000000000) = .operation (.ctlRdRsvd40 0x40 0) ∧
    decode (.ctl 0b0_1_1111100_00000000000000000000000000000000) = .operation (.ctlRdRsvd80 0xFC 0) ∧
    decode (.ctl 0b1_001_00001_00000000000000000000000000000011) = .operation (.ctlWrRsvd20 0x21 3) ∧
    decode (.ctl 0b1_01_111111_11111111111111111111111111111111) = .operation (.ctlWrRsvd40 0x7F 0xFFFFFFFF) ∧
    decode (.ctl 0b1_1_0011100_00000000000000000000000000000000) = .operation (.ctlWrRsvd80 0x9C 0) := by decide

theorem test_decode_streams :
    decode (.iq 0b0_01111111) = .operation (.iqBeat 127) ∧
    decode (.iq 0b1_10000000) = .operation (.iqBeatLast 128) ∧
    decode (.snk 0b01) = .operation .snkAccept ∧
    decode (.snk 0b10) = .operation (.snkError 0) ∧ decode (.snk 0b11) = .operation (.snkError 1) ∧
    decode (.rst 0b1) = .operation .rst ∧
    decode (.snk 0b00) = .noOperation .sinkStall ∧ decode (.rst 0b0) = .noOperation .resetIdle := by decide

/-- A table word by its exact width or its width in whole bytes. -/
theorem test_decodeTableWord :
    decodeTableWord 16 0x07F = some (.iqBeat 127) ∧ decodeTableWord 9 0x180 = some (.iqBeatLast 128) ∧
    decodeTableWord 48 0x10000000004 = some (.ctlWrCtrl 0 4) ∧ decodeTableWord 2 1 = some .snkAccept ∧
    decodeTableWord 8 2 = some (.snkError 0) ∧ decodeTableWord 1 1 = some .rst ∧ decodeTableWord 8 1 = some .rst ∧
    decodeTableWord 8 0 = none ∧ decodeTableWord 16 0x200 = none := by decide

/-! ### The magnitude unit: `42_magnitude.md` R145 and `95_test_vectors.md` 2.2 -/

theorem test_magBits_ratio_1 :
    magBits 255 2 = 0x3BB5BAAE ∧ magBits 255 65026 = 0x3F800041 ∧ magBits 255 129034 = 0x3FB44F94 ∧
    magBits 255 130050 = 0x3FB504F3 ∧ magBits 255 32770 = 0x3F35BC19 ∧ magBits 255 76250 = 0x3F8A9BC4 := by
  decide +kernel

theorem test_magBits_other_ratios :
    magBits 510 0 = 0x00000000 ∧ magBits 510 4 = 0x3B808081 ∧ magBits 510 260100 = 0x3F800000 ∧
    magBits 765 2 = 0x3AF24E3D ∧ magBits 1275 1 = 0x3A4D9A67 ∧ magBits 1275 183850 = 0x3EAC2EFB := by
  decide +kernel

/-- `95_test_vectors.md` 2.2, widths. -/
theorem test_widths :
    ({ ratio := 1, frames := 1 } : Params).sumWidth = 9 ∧ ({ ratio := 1, frames := 1 } : Params).energyWidth = 17 ∧
    ({ ratio := 2, frames := 1 } : Params).sumWidth = 10 ∧ ({ ratio := 2, frames := 1 } : Params).energyWidth = 19 ∧
    ({ ratio := 5, frames := 10 } : Params).sumWidth = 12 ∧
    ({ ratio := 5, frames := 10 } : Params).energyWidth = 22 := by decide +kernel

/-- `30_encoding.md` R72. -/
theorem test_sampleCode :
    sampleCode 0 = -255 ∧ sampleCode 64 = -127 ∧ sampleCode 127 = -1 ∧ sampleCode 128 = 1 ∧
    sampleCode 255 = 255 := by decide

/-! ### The control port: `95_test_vectors.md` 2.5 -/

theorem test_rdCtrl :
    (after (.ctlRdCtrl 0 0) { small with block := { small.block with route := .left, clamp := true } }).env.hostGot =
      [0x5] := by decide

theorem test_wrCtrl_reserved_route :
    (after (.ctlWrCtrl 0 0x7) { small with block := { small.block with route := .left } }).block.ctrlWord = 0x5 ∧
    (after (.ctlWrCtrl 0 0x3) { small with block := { small.block with clamp := true } }).block.ctrlWord = 0x0 := by
  decide

theorem test_wrCtrl_high_bits_ignored :
    (after (.ctlWrCtrl 0 0xFFFFFFFA) small).block.ctrlWord = 0x2 := by decide

/-- The example of `44_control.md` R195. -/
theorem test_rdStatus :
    (after (.ctlRdStatus 1 0) { small with block := { small.block with phase := .sink, cancel := true } }).env.hostGot =
      [0x23] := by decide

theorem test_wrStatus :
    (after (.ctlWrStatus 0 0xF)
      { small with block := { small.block with cancel := true, lenErr := true, sinkErr := true } }).block.statusWord =
      0x01 ∧
    (after (.ctlWrStatus 0 0x4)
      { small with block := { small.block with lenErr := true, sinkErr := true } }).block.statusWord = 0x08 := by decide

theorem test_rdShutdown :
    (after (.ctlRdShutdown 0 0) { small with block := { small.block with cancel := true } }).env.hostGot = [0] := by
  decide

theorem test_wrShutdown :
    (after (.ctlWrShutdown 0 0x2) small).block.statusWord = 0x00 ∧
    (after (.ctlWrShutdown 0 0x1) small).block.statusWord = 0x01 ∧
    (after (.ctlWrShutdown 0 0x1) small).block.srcAbort = true := by decide

theorem test_rdPeak :
    (after (.ctlRdPeak 0 0) { small with block := { small.block with peak := 0x3FB504F3 } }).env.hostGot =
      [0x3FB504F3] := by decide

theorem test_rdDoneCnt :
    (after (.ctlRdDoneCnt 0 0) { small with block := { small.block with doneCnt := 2 } }).env.hostGot = [2] := by decide

theorem test_rdLastAcc :
    (after (.ctlRdLastAcc 0 0) { small with block := { small.block with lastAcc := 10 } }).env.hostGot = [0xA] := by
  decide

theorem test_rdCfg :
    (after (.ctlRdCfgRatio 0 0) State.reset).env.hostGot = [0x5] ∧
    (after (.ctlRdCfgFrames 0 0) State.reset).env.hostGot = [0xA] := by decide

theorem test_rdReserved :
    (after (.ctlRdRsvd20 0x20 0) small).env.hostGot = [0] ∧ (after (.ctlRdRsvd40 0x40 0) small).env.hostGot = [0] ∧
    (after (.ctlRdRsvd80 0xFC 0) small).env.hostGot = [0] := by decide

theorem test_ignored_writes :
    after (.ctlWrPeak 0 5) small = small ∧ after (.ctlWrDoneCnt 0 5) small = small ∧
    after (.ctlWrLastAcc 0 5) small = small ∧ after (.ctlWrCfgRatio 0 5) small = small ∧
    after (.ctlWrCfgFrames 0 5) small = small ∧ after (.ctlWrRsvd20 0x20 5) small = small ∧
    after (.ctlWrRsvd40 0x40 0xFFFFFFFF) small = small ∧ after (.ctlWrRsvd80 0x9C 0) small = small := by decide

/-! ### The input stream -/

/-- The example of `40_invocation.md` R102. -/
theorem test_iqBeat_first :
    (after (.iqBeat 255) small).block.phase = .collect ∧ (after (.iqBeat 255) small).block.accI = 255 ∧
    (after (.iqBeat 255) small).block.accQ = 0 ∧ (after (.iqBeat 255) small).block.n = 1 := by decide

/-- Beat 4 of the accumulate table of `95_test_vectors.md` 2.2. -/
theorem test_iqBeat_completes_frame :
    (after (.iqBeat 128) (collecting 3 510 (-1))).block.outbuf = [twin 0x3F800000, twin 0] ∧
    (after (.iqBeat 128) (collecting 3 510 (-1))).block.accI = 0 ∧
    (after (.iqBeat 128) (collecting 3 510 (-1))).block.emax = 260100 := by decide +kernel

/-- `95_test_vectors.md` 2.3, `L = 1`: `STATUS = 0x04`. -/
theorem test_iqBeatLast_one_byte :
    (after (.iqBeatLast 255) small).block.statusWord = 0x04 ∧ (after (.iqBeatLast 255) small).block.n = 1 := by
  decide

/-- `95_test_vectors.md` 2.3, `L = 8`, its last byte: `STATUS = 0x22`. -/
theorem test_iqBeatLast_valid :
    (after (.iqBeatLast 255) (collecting 7 510 255)).block.statusWord = 0x22 ∧
    (after (.iqBeatLast 255) (collecting 7 510 255)).block.outbuf = [twin 0, twin 0x3FB504F3] := by decide +kernel

/-! ### The sink and reset: `95_test_vectors.md` 2.4 and 2.6 -/

theorem test_snkAccept_delivers :
    (after .snkAccept (offering 0)).env.sinkGot = [0x3FB504F33FB504F3] ∧
    (after .snkAccept (offering 0)).block.w = 1 := by decide

theorem test_snkAccept_last :
    (after .snkAccept (offering 1)).block.statusWord = 0x00 ∧ (after .snkAccept (offering 1)).block.lastAcc = 2 ∧
    (after .snkAccept (offering 1)).block.doneCnt = 1 ∧
    (after .snkAccept (offering 1)).block.peak = 0x3FB504F3 := by decide +kernel

theorem test_snkError :
    (after (.snkError 0) (offering 1)).block.statusWord = 0x08 ∧ (after (.snkError 0) (offering 1)).block.lastAcc = 1 ∧
    (after (.snkError 0) (offering 1)).block.peak = 0x3FB504F3 ∧
    (after (.snkError 0) (offering 1)).env.sinkGot = [] := by decide +kernel

/-- `10_state.md` R28: the count wraps. -/
theorem test_doneCnt_wraps :
    (after (.snkError 1)
      { offering 0 with block := { (offering 0).block with doneCnt := 0xFFFFFFFF } }).block.doneCnt = 0 := by
  decide +kernel

theorem test_rst :
    (after .rst { offering 1 with block := { (offering 1).block with cancel := true } }).block =
      Block.reset { ratio := 1, frames := 2 } := by decide

/-! ### The step -/

/-- The word placed by `State.withFetchWord` runs as the first operation after reset. -/
theorem test_first_operation_after_reset :
    (stepped (State.reset.withFetchWord 48 0x10000000005)).block.ctrlWord = 0x5 ∧
    (stepped (State.reset.withFetchWord 16 0x0FF)).block.accI = 255 := by decide

/-- `40_invocation.md` R107: a beat offered in `SINK` stays offered. -/
theorem test_beat_waits_in_sink :
    (stepped ((offering 0).withFetchWord 16 0x0FF)).env.iqIn = [0x0FF] ∧
    (stepped ((offering 0).withFetchWord 16 0x0FF)).block = (offering 0).block := by decide

/-! ### Witnesses: concrete inputs that meet the hypotheses of each statement -/

/-- Hypotheses of `WellFormedOperationsDecodeBack`, at both ends of a range. -/
theorem witness_WellFormedOperationsDecodeBack :
    (Instr.ctlWrRsvd40 0x40 1).wellFormed = true ∧ (Instr.ctlWrRsvd40 0x7F 1).wellFormed = true := by decide

/-- Hypothesis of `DecodedWordsEncodeBack`. -/
theorem witness_DecodedWordsEncodeBack : ∃ o i, decode o = .operation i :=
  ⟨.ctl 0x10000000004, .ctlWrCtrl 0 4, by decide⟩

/-- Both clauses of `OperationMapHasOneRowPerWord`. -/
theorem witness_OperationMapHasOneRowPerWord :
    (∃ i, decode (.snk 0b01) = .operation i) ∧ ∃ why, decode (.snk 0b00) = .noOperation why :=
  ⟨⟨.snkAccept, by decide⟩, ⟨.sinkStall, by decide⟩⟩

/-- Hypotheses of `StepRunsTheDecodedOperation`. -/
theorem witness_StepRunsTheDecodedOperation :
    let s := small.withFetchWord 16 0x0FF
    s.env.turns = .iq :: [] ∧ s.env.offered .iq = some (.iq 0x0FF) ∧
      decode (.iq 0x0FF) = .operation (.iqBeat 255) ∧ s.block.ready .iq = true := by decide

/-- Hypotheses of `OfferOnAPortThatIsNotReadyWaits`. -/
theorem witness_OfferOnAPortThatIsNotReadyWaits :
    let s := (offering 0).withFetchWord 16 0x0FF
    s.env.turns = .iq :: [] ∧ s.env.offered .iq = some (.iq 0x0FF) ∧
      decode (.iq 0x0FF) = .operation (.iqBeat 255) ∧ s.block.ready .iq = false := by decide

/-- The three clauses of `WithoutAnOperationTheBlockStays`. -/
theorem witness_WithoutAnOperationTheBlockStays :
    small.env.turns = [] ∧
    (let s : State := { small with env := { small.env with turns := [.snk] } }
     s.env.turns = .snk :: [] ∧ s.env.offered .snk = none) ∧
    (let s : State := { small with env := { small.env with turns := [.snk], snkIn := [0b00] } }
     s.env.turns = .snk :: [] ∧ s.env.offered .snk = some (.snk 0b00) ∧
       decode (.snk 0b00) = .noOperation .sinkStall) := by decide

/-- Hypotheses of `PlacedTableWordRunsNext`, on a stream port and on the reset input. -/
theorem witness_PlacedTableWordRunsNext :
    (decodeTableWord 16 0x0FF = some (.iqBeat 255) ∧ small.block.ready (Instr.iqBeat 255).port = true) ∧
    (decodeTableWord 8 2 = some (.snkError 0) ∧ (offering 0).block.ready (Instr.snkError 0).port = true) ∧
    (decodeTableWord 8 1 = some .rst ∧ small.block.ready Instr.rst.port = true) := by decide

/-- The four clauses of `CtrlWriteIsWarl`. -/
theorem witness_CtrlWriteIsWarl :
    (0x4 : Word).extractLsb' 0 2 = 0b00 ∧ (0x5 : Word).extractLsb' 0 2 = 0b01 ∧
    (0x6 : Word).extractLsb' 0 2 = 0b10 ∧ (0x7 : Word).extractLsb' 0 2 = 0b11 := by decide

/-- Hypotheses of `ControlWritesAreIdempotent`. -/
theorem witness_ControlWritesAreIdempotent :
    ∃ t, exec (.ctlWrCtrl 0 0x6) small = .next t ∧ ∃ u, exec (.ctlWrStatus 0 0xC) small = .next u ∧
      ∃ v, exec (.ctlWrShutdown 0 1) small = .next v := ⟨_, rfl, _, rfl, _, rfl⟩

/-- Hypothesis of `ControlRequestsCompleteAndLeaveTheEngineAlone`. -/
theorem witness_ControlRequestsComplete : (Instr.ctlWrRsvd80 0xFF 0).port = .ctl := rfl

/-- Hypothesis of `FirstBeatStartsTheInvocation`. -/
theorem witness_FirstBeatStartsTheInvocation : small.block.phase = .idle := rfl

/-- Hypotheses of `BeatAddsItsCodeToItsLane`, in the I lane and in the Q lane. -/
theorem witness_BeatAddsItsCodeToItsLane :
    ((collecting 2 255 (-1)).block.phase = .collect ∧ (collecting 2 255 (-1)).block.invCancel = false ∧
      (collecting 2 255 (-1)).block.n < 2 * 2 * 2 ∧ (collecting 2 255 (-1)).block.n % (2 * 2) ≠ 2 * 2 - 1) ∧
    ((collecting 5 255 0).block.n < 2 * 2 * 2 ∧ (collecting 5 255 0).block.n % (2 * 2) ≠ 2 * 2 - 1 ∧
      (collecting 5 255 0).block.n % 2 = 1) := by decide

/-- Hypotheses of `BeatEndingAFrameStoresIt`, for the last frame. -/
theorem witness_BeatEndingAFrameStoresIt :
    1 ≤ (collecting 7 510 255).cfg.ratio ∧ (collecting 7 510 255).block.phase = .collect ∧
    (collecting 7 510 255).block.invCancel = false ∧ (collecting 7 510 255).block.n < 2 * 2 * 2 ∧
    (collecting 7 510 255).block.n % (2 * 2) = 2 * 2 - 1 := by decide

/-- Both clauses of `ExcessAndCancelledBeatsAreNotUsed`. -/
theorem witness_ExcessAndCancelledBeatsAreNotUsed :
    ((collecting 8 0 0).block.phase = .collect ∧ (collecting 8 0 0).block.invCancel = false ∧
      2 * 2 * 2 ≤ (collecting 8 0 0).block.n) ∧
    (let s : State :=
        { collecting 0 0 0 with block := { (collecting 0 0 0).block with invCancel := true } }
     s.block.phase = .collect ∧ s.block.invCancel = true) := by decide

/-- Hypothesis of `LastBeatDecidesTheBuffer`. -/
theorem witness_LastBeatDecidesTheBuffer : (collecting 7 510 255).block.phase ≠ .sink := by decide

/-- Both clauses of `StreamOperationsWaitForTheirPhase`. -/
theorem witness_StreamOperationsWaitForTheirPhase :
    (offering 0).block.phase = .sink ∧ small.block.phase ≠ .sink := by decide

/-- Hypotheses of `BeatsStoreOnlyTheFrameTheyComplete`, with a frame that is not the one completed and with a beat that
completes none. -/
theorem witness_BeatsStoreOnlyTheFrameTheyComplete :
    (∃ t, exec (.iqBeat 128) (collecting 3 510 (-1)) = .next t) ∧
    (1 : Nat) ≠ (collecting 3 510 (-1)).block.startIfIdle.n / (collecting 3 510 (-1)).cfg.frameLen ∧
    (∃ t, exec (.iqBeatLast 1) (collecting 8 0 0) = .next t) ∧
    (collecting 8 0 0).cfg.rawLen ≤ (collecting 8 0 0).block.startIfIdle.n := by
  exact ⟨⟨_, rfl⟩, by decide, ⟨_, rfl⟩, by decide⟩

/-- Hypotheses of `AcceptDeliversFrameAndMovesOn`. -/
theorem witness_AcceptDeliversFrameAndMovesOn :
    (offering 0).block.phase = .sink ∧ (offering 0).block.w + 1 < (offering 0).cfg.frames ∧
    (offering 0).block.outbuf[(offering 0).block.w]? = some (twin 0x3FB504F3) := by decide

/-- Hypotheses of `LastAcceptEndsTheSinkPhase`. -/
theorem witness_LastAcceptEndsTheSinkPhase :
    (offering 1).block.phase = .sink ∧ (offering 1).block.w + 1 = (offering 1).cfg.frames ∧
    (offering 1).block.outbuf[(offering 1).block.w]? = some (twin 0x3BB5BAAE) := by decide

/-- Hypothesis of `SinkErrorEndsTheSinkPhase`. -/
theorem witness_SinkErrorEndsTheSinkPhase : (offering 0).block.phase = .sink := rfl

/-- Hypotheses of `SinkResponsesLeaveTheDatapathAlone`. -/
theorem witness_SinkResponsesLeaveTheDatapathAlone :
    ∃ t, exec .snkAccept (offering 0) = .next t ∧ ∃ u, exec (.snkError 1) (offering 0) = .next u := ⟨_, rfl, _, rfl⟩

/-- The sink phase of `tinyOffering` has the shape. -/
theorem tinyOffering_shape : tinyOffering.ShapeInv := by
  refine ⟨by decide, ?_⟩
  constructor <;> decide

/-- The frame of `tinyOffering` obeys its snapshots. -/
theorem tinyOffering_obeys : (twin 0x3F800041).Obeys .both false := by
  constructor <;> decide

/-- The values of `tinyOffering` are in range. -/
theorem tinyOffering_values : tinyOffering.ValuesInv := by
  refine ⟨by decide, by constructor <;> decide, by decide, by decide, ?_⟩
  intro j f hj hf
  have h0 : j = 0 := by
    have : tinyOffering.block.n / tinyOffering.cfg.frameLen = 1 := by decide
    omega
  subst h0
  have : f = twin 0x3F800041 := by
    have : tinyOffering.block.outbuf[0]? = some (twin 0x3F800041) := by decide
    rw [this] at hf
    exact (Option.some.inj hf).symm
  subst this
  exact tinyOffering_obeys

/-- Hypotheses of `DeliveredFrameObeysItsSnapshots`. -/
theorem witness_DeliveredFrameObeysItsSnapshots :
    tinyOffering.ShapeInv ∧ tinyOffering.ValuesInv ∧ tinyOffering.block.phase = .sink :=
  ⟨tinyOffering_shape, tinyOffering_values, rfl⟩

/-- Hypothesis of `AfterResetThePortsAreIdle`. -/
theorem witness_AfterResetThePortsAreIdle : ∃ t, exec .rst (offering 1) = .next t := ⟨_, rfl⟩

/-- Hypotheses of the statements about legal parameters and energies, at the smallest and a large `RATIO` and at both
ends of the energies. -/
theorem witness_numbers :
    ({ ratio := 1, frames := 1 } : Params).legal = true ∧
    ({ ratio := 2 ^ 31 - 1, frames := 1 } : Params).legal = true ∧
    (∃ e : Nat, 1 ≤ e ∧ e ≤ 2 * ({ ratio := 1, frames := 1 } : Params).scale ^ 2) ∧
    (∃ e₁ e₂ : Nat, e₁ ≤ e₂ ∧ e₂ ≤ 2 * ({ ratio := 1, frames := 1 } : Params).scale ^ 2) ∧
    ∃ x : Nat, x ≤ 2 * 255 ^ 2 :=
  ⟨by decide, by decide, ⟨130050, by decide, by decide⟩, ⟨0, 130050, by decide, by decide⟩, ⟨130050, by decide⟩⟩

/-- Hypotheses of `WidthsHoldEverySumAndEnergy`, at the bounds. -/
theorem witness_WidthsHoldEverySumAndEnergy :
    |(255 : Int)| ≤ 255 * ((1 : Nat) : Int) ∧ |(-255 : Int)| ≤ 255 * ((1 : Nat) : Int) := by decide

/-- Hypotheses of `ConstantBytesGiveTheirExactMean`: the bytes 129, 126 of `95_test_vectors.md` W3 at `RATIO = 2`. -/
theorem witness_ConstantBytesGiveTheirExactMean :
    let p : Params := { ratio := 2, frames := 1 }
    let bytes : List Byte := [129, 126, 129, 126]
    p.legal = true ∧ 0 < p.frames ∧ bytes.length = p.rawLen ∧
    ∀ k, k < p.ratio →
      bytes[2 * p.ratio * 0 + 2 * k]? = some 129 ∧ bytes[2 * p.ratio * 0 + 2 * k + 1]? = some 126 := by decide

/-- Operations that bring the buffer `255, 127` with a Host's write between its beats. -/
theorem tiny_brings :
    BringsBuffer [255, 127] [.iqBeat 255, .ctlWrCtrl 0 1, .iqBeatLast 127] :=
  BringsBuffer.several 255 127 [.ctlWrCtrl 0 1] (by intro i hi; simp_all [Instr.port])

/-- Hypotheses of `ValidBufferFillsTheOutputBuffer`. -/
theorem witness_ValidBufferFillsTheOutputBuffer :
    tiny.cfg.legal = true ∧ tiny.block.outbuf.length = tiny.cfg.frames ∧ tiny.block.phase = .idle ∧
    tiny.block.cancel = false ∧ BringsBuffer [255, 127] [.iqBeat 255, .ctlWrCtrl 0 1, .iqBeatLast 127] ∧
    ([255, 127] : List Byte).length = tiny.cfg.rawLen :=
  ⟨by decide, by decide, rfl, rfl, tiny_brings, by decide⟩

/-- Hypotheses of `WrongLengthBufferIsIgnored`: a buffer of `RAWLEN - 1` bytes and one of `RAWLEN + 1`. -/
theorem witness_WrongLengthBufferIsIgnored :
    tiny.cfg.legal = true ∧ tiny.block.phase = .idle ∧ tiny.block.cancel = false ∧
    (BringsBuffer [7] [.iqBeatLast 7] ∧ ([7] : List Byte).length + 1 = tiny.cfg.rawLen) ∧
    BringsBuffer [7, 8, 9] [.iqBeat 7, .iqBeat 8, .iqBeatLast 9] ∧
      ([7, 8, 9] : List Byte).length = tiny.cfg.rawLen + 1 :=
  ⟨by decide, rfl, rfl, ⟨.single 7, by decide⟩,
    BringsBuffer.several 7 9 [.iqBeat 8] (by intro i hi; simp_all), by decide⟩

/-- Hypotheses of `CancelledBufferIsANoOp`. -/
theorem witness_CancelledBufferIsANoOp :
    let s : State := { tiny with block := { tiny.block with cancel := true } }
    s.block.phase = .idle ∧ s.block.cancel = true ∧ BringsBuffer [7] [.iqBeatLast 7] :=
  ⟨rfl, rfl, .single 7⟩

/-- Hypotheses of `SentFramesDependOnlyOnBytesAndSnapshots`: two states with different histories and Hosts. -/
theorem witness_SentFramesDependOnlyOnBytesAndSnapshots :
    let s₂ : State := { tiny with block := { tiny.block with doneCnt := 3, outbuf := [twin 7], emax := 9 } }
    tiny.cfg = s₂.cfg ∧ tiny.cfg.legal = true ∧ tiny.block.outbuf.length = tiny.cfg.frames ∧
    s₂.block.outbuf.length = s₂.cfg.frames ∧ tiny.block.phase = .idle ∧ s₂.block.phase = .idle ∧
    tiny.block.cancel = s₂.block.cancel ∧ tiny.block.route = s₂.block.route ∧ tiny.block.clamp = s₂.block.clamp ∧
    BringsBuffer [255, 127] [.iqBeat 255, .ctlWrCtrl 0 1, .iqBeatLast 127] ∧
    BringsBuffer [255, 127] [.iqBeat 255, .iqBeatLast 127] ∧ ∀ i ∈ [Instr.snkAccept], i.port = .snk :=
  ⟨rfl, by decide, by decide, by decide, rfl, rfl, rfl, rfl, rfl, tiny_brings,
    BringsBuffer.several 255 127 [] (by intro i hi; simp at hi), by simp [Instr.port]⟩

/-- Hypotheses of `AcceptsDeliverFramesInOrder`. -/
theorem witness_AcceptsDeliverFramesInOrder :
    tinyOffering.ShapeInv ∧ tinyOffering.block.phase = .sink ∧
    tinyOffering.block.w + 1 ≤ tinyOffering.cfg.frames := ⟨tinyOffering_shape, rfl, by decide⟩

/-- Hypothesis of `DeliveredStreamIsThePrefixesInOrder`. -/
theorem witness_DeliveredStreamIsThePrefixesInOrder : ({ ratio := 1, frames := 1 } : Params).legal = true := by decide

/-- Hypotheses of `NothingIsSentAfterShutdown`. -/
theorem witness_NothingIsSentAfterShutdown :
    let s : State := { tiny with
      block := { tiny.block with cancel := true }
      env := { tiny.env with turns := [.iq, .rst, .snk], iqIn := [0x1FF], rstIn := [0], snkIn := [1] } }
    s.block.cancel = true ∧ s.block.phase = .idle ∧ ∀ l ∈ s.env.rstIn, l = 0 := by decide

/-- Hypotheses of `FullScaleFrameGivesTheLargestPeak`: the buffer `255, 0` at `RATIO = 1` (`41_decimation.md` R123). -/
theorem witness_FullScaleFrameGivesTheLargestPeak :
    tiny.cfg.legal = true ∧ tiny.block.outbuf.length = tiny.cfg.frames ∧ tiny.block.phase = .idle ∧
    tiny.block.cancel = false ∧ BringsBuffer [255, 0] [.iqBeat 255, .iqBeatLast 0] ∧
    ([255, 0] : List Byte).length = tiny.cfg.rawLen ∧ 0 < tiny.cfg.frames ∧
    bufferEnergy tiny.cfg [255, 0] 0 = 2 * tiny.cfg.scale ^ 2 :=
  ⟨by decide, by decide, rfl, rfl, BringsBuffer.several 255 0 [] (by intro i hi; simp at hi), by decide, by decide,
    by decide⟩

/-- Hypotheses of `PhaseMovesOnlyAsListed`. -/
theorem witness_PhaseMovesOnlyAsListed :
    (collecting 7 510 255).cfg.legal = true ∧ ∃ t, exec (.iqBeatLast 255) (collecting 7 510 255) = .next t :=
  ⟨by decide, _, rfl⟩

/-- Hypotheses of `SnapshotsHoldThroughTheInvocation`. -/
theorem witness_SnapshotsHoldThroughTheInvocation :
    (collecting 1 0 0).block.phase ≠ .idle ∧ Instr.ctlWrCtrl 0 1 ≠ .rst ∧
    ∃ t, exec (.ctlWrCtrl 0 1) (collecting 1 0 0) = .next t := ⟨by decide, by decide, _, rfl⟩

/-- Both clauses of `CancelMovesOnlyByShutdownAndReset`. -/
theorem witness_CancelMovesOnlyByShutdownAndReset :
    (small.block.cancel = false ∧ (after (.ctlWrShutdown 0 1) small).block.cancel = true) ∧
    (let s : State := { small with block := { small.block with cancel := true } }
     s.block.cancel = true ∧ (after .rst s).block.cancel = false) := by decide

/-- The four clauses of `ErrorBitsMoveOnlyByTheirEvents`. -/
theorem witness_ErrorBitsMoveOnlyByTheirEvents :
    (small.block.lenErr = false ∧ (after (.iqBeatLast 1) small).block.lenErr = true) ∧
    ((offering 0).block.sinkErr = false ∧ (after (.snkError 0) (offering 0)).block.sinkErr = true) ∧
    (let s : State := { small with block := { small.block with lenErr := true, sinkErr := true } }
     (after (.ctlWrStatus 0 0xC) s).block.lenErr = false ∧ (after (.ctlWrStatus 0 0xC) s).block.sinkErr = false) := by
  decide +kernel

/-- Both clauses of `CountersMoveOnlyAtTheEndOfASinkPhase`. -/
theorem witness_CountersMoveOnlyAtTheEndOfASinkPhase :
    (Instr.snkAccept ≠ .rst ∧ (offering 1).block.phase = .sink ∧
      (after .snkAccept (offering 1)).block.phase = .idle) ∧
    ¬((offering 0).block.phase = .sink ∧ (after .snkAccept (offering 0)).block.phase = .idle) := by decide

/-- Hypotheses of `StepKeepsTheShape`, `StepKeepsTheSums` and `StepKeepsTheValues`: a sink phase about to move. -/
theorem witness_StepKeeps :
    let s := tinyOffering.withFetchWord 2 1
    s.ShapeInv ∧ s.SumsInv ∧ s.ValuesInv ∧ ∃ t, step s = .next t :=
  ⟨tinyOffering_shape, ⟨tinyOffering_values.1, tinyOffering_values.2.1⟩, tinyOffering_values, _, rfl⟩

end Sys2Proof.Tests
end

/-! The step on an offered operation (`00_scope.md` R14): on a ready port the word is taken and the operation runs; on a
port that is not ready the operation is disabled and the word stays. -/

namespace Sys2Proof.Machine

/-! ### Taking an offered word -/

namespace State

theorem takeIfReady_of_ready {s : State} {p : Port} (h : s.block.ready p = true) : s.takeIfReady p = s.take p :=
  if_pos h

theorem takeIfReady_of_not_ready {s : State} {p : Port} (h : s.block.ready p = false) : s.takeIfReady p = s :=
  if_neg (by simp [h])

end State

/-! ### Disabled operations

Control requests and reset have no enabling condition, so only the four stream operations can be disabled. -/

theorem execIqBeat_of_not_ready (v : Byte) {s : State} (h : s.block.iqReady = false) : execIqBeat v s = .next s := by
  simp [execIqBeat, h]

theorem execIqBeatLast_of_not_ready (v : Byte) {s : State} (h : s.block.iqReady = false) :
    execIqBeatLast v s = .next s := by
  simp [execIqBeatLast, h]

theorem execSnkAccept_of_not_valid {s : State} (h : s.block.snkValid = false) : execSnkAccept s = .next s := by
  simp [execSnkAccept, h]

theorem execSnkError_of_not_valid {s : State} (h : s.block.snkValid = false) : execSnkError s = .next s := by
  simp [execSnkError, h]

/-- An operation whose port is not ready leaves everything as it is (`00_scope.md` R14, log 3). -/
theorem exec_of_not_ready {i : Instr} {s : State} (h : s.block.ready i.port = false) : exec i s = .next s := by
  cases i with
  | iqBeat v => exact execIqBeat_of_not_ready v h
  | iqBeatLast v => exact execIqBeatLast_of_not_ready v h
  | snkAccept => exact execSnkAccept_of_not_valid h
  | snkError acc => exact execSnkError_of_not_valid h
  | _ => cases h

/-! ### The step on an offered operation -/

section offeredOperation

variable {s : State} {p : Port} {later : List Port} {o : Offer} {i : Instr}

theorem step_of_operation (hturns : s.env.turns = p :: later) (hoffer : s.env.offered p = some o)
    (hdecode : decode o = .operation i) : step s = exec i ((s.turn later).takeIfReady p) := by
  simp only [step, hturns, hoffer, hdecode]

theorem step_of_ready (hturns : s.env.turns = p :: later) (hoffer : s.env.offered p = some o)
    (hdecode : decode o = .operation i) (hready : s.block.ready p = true) :
    step s = exec i ((s.turn later).take p) := by
  rw [step_of_operation hturns hoffer hdecode, State.takeIfReady_of_ready (s := s.turn later) hready]

theorem step_of_not_ready (hturns : s.env.turns = p :: later) (hoffer : s.env.offered p = some o)
    (hdecode : decode o = .operation i) (hwait : s.block.ready p = false) : step s = .next (s.turn later) := by
  have hport : i.port = p := (decode_port hdecode).trans (offered_port hoffer)
  have hdisabled : (s.turn later).block.ready i.port = false := by rw [State.turn_block, hport, hwait]
  calc step s = exec i ((s.turn later).takeIfReady p) := step_of_operation hturns hoffer hdecode
    _ = exec i (s.turn later) := by rw [State.takeIfReady_of_not_ready (s := s.turn later) hwait]
    _ = .next (s.turn later) := exec_of_not_ready hdisabled

end offeredOperation

/-! ### The statements -/

/-- Settles O7: the decoded operation belongs to the port it is offered on, so it is disabled there. -/
theorem offerOnAPortThatIsNotReadyWaits : Obligations.OfferOnAPortThatIsNotReadyWaits :=
  fun _ _ _ _ _ hturns hoffer hdecode hwait => step_of_not_ready hturns hoffer hdecode hwait

/-- Settles O6: on a ready port the offered word is taken before its operation runs. -/
theorem stepRunsTheDecodedOperation : Obligations.StepRunsTheDecodedOperation :=
  fun _ _ _ _ _ hturns hoffer hdecode hready => step_of_ready hturns hoffer hdecode hready

end Sys2Proof.Machine

/-! What an operation can do, said once: `Effect` lists the outcomes of `exec`, and the rules about every operation
below are case splits over it. -/

namespace Sys2Proof.Machine

/-! ### The stream operations when they are enabled, and when they wait -/

section enabled

variable {s : State}

theorem exec_iqBeat_of_not_sink (v : Byte) (h : s.block.phase ≠ .sink) :
    exec (.iqBeat v) s = .next (s.withBlock { s.block.startIfIdle.dataBeat s.cfg v with phase := .collect }) :=
  if_pos (s.block.iqReady_iff.2 h)

theorem exec_iqBeatLast_of_not_sink (v : Byte) (h : s.block.phase ≠ .sink) :
    exec (.iqBeatLast v) s = .next (s.withBlock ((s.block.startIfIdle.dataBeat s.cfg v).endBuffer s.cfg)) :=
  if_pos (s.block.iqReady_iff.2 h)

theorem exec_snkAccept_of_sink (h : s.block.phase = .sink) :
    exec .snkAccept s = .next (s.deliver.withBlock (s.block.acceptFrame s.cfg)) :=
  if_pos (s.block.snkValid_iff.2 h)

theorem exec_snkError_of_sink (acc : BitVec 1) (h : s.block.phase = .sink) :
    exec (.snkError acc) s = .next (s.withBlock (s.block.raiseSinkErr.endSink s.cfg s.block.w)) :=
  if_pos (s.block.snkValid_iff.2 h)

theorem exec_iq_of_sink {i : Instr} (hport : i.port = .iq) (h : s.block.phase = .sink) : exec i s = .next s :=
  exec_of_not_ready (by simp [hport, Block.ready, Block.iqReady, h])

theorem exec_snk_of_not_sink {i : Instr} (hport : i.port = .snk) (h : s.block.phase ≠ .sink) : exec i s = .next s :=
  exec_of_not_ready (by simp [hport, Block.ready, Block.snkValid, h])

end enabled

/-! ### The outcomes of an operation -/

/-- `Effect s i t`: the operation `i` takes the machine from `s` to `t`. One constructor per way to do so
(`30_encoding.md` R79, `00_scope.md` R14); `exec_effect` ties it to `exec`. -/
inductive Effect (s : State) : Instr → State → Prop
  /-- A read is answered. -/
  | answered {i : Instr} (hport : i.port = .ctl) (v : Word) : Effect s i (s.answer v)
  /-- A write to a read-only register or a reserved offset. -/
  | ignored {i : Instr} (hport : i.port = .ctl) : Effect s i s
  | wroteCtrl (a : BitVec 2) (d : Word) : Effect s (.ctlWrCtrl a d) (s.withBlock (s.block.writeCtrl d))
  | wroteStatus (a : BitVec 2) (d : Word) : Effect s (.ctlWrStatus a d) (s.withBlock (s.block.writeStatus d))
  | wroteShutdown (a : BitVec 2) (d : Word) : Effect s (.ctlWrShutdown a d) (s.withBlock (s.block.writeShutdown d))
  /-- A stream operation in a phase that does not enable it. -/
  | waited {i : Instr} (hwait : s.block.ready i.port = false) : Effect s i s
  | beat (v : Byte) (h : s.block.phase ≠ .sink) :
      Effect s (.iqBeat v) (s.withBlock { s.block.startIfIdle.dataBeat s.cfg v with phase := .collect })
  | lastBeat (v : Byte) (h : s.block.phase ≠ .sink) :
      Effect s (.iqBeatLast v) (s.withBlock ((s.block.startIfIdle.dataBeat s.cfg v).endBuffer s.cfg))
  | accepted (h : s.block.phase = .sink) :
      Effect s .snkAccept (s.deliver.withBlock (s.block.acceptFrame s.cfg))
  | sinkFailed (acc : BitVec 1) (h : s.block.phase = .sink) :
      Effect s (.snkError acc) (s.withBlock (s.block.raiseSinkErr.endSink s.cfg s.block.w))
  | reset : Effect s .rst (s.withBlock (Block.reset s.cfg))

/-- Every operation answers a next state, and it is one of the listed outcomes. -/
theorem exec_effect (i : Instr) (s : State) : ∃ t, exec i s = .next t ∧ Effect s i t := by
  cases hready : s.block.ready i.port with
  | false => exact ⟨s, exec_of_not_ready hready, .waited hready⟩
  | true =>
    cases i with
    | ctlRdCtrl | ctlRdStatus | ctlRdShutdown | ctlRdPeak | ctlRdDoneCnt | ctlRdLastAcc | ctlRdCfgRatio
    | ctlRdCfgFrames | ctlRdRsvd20 | ctlRdRsvd40 | ctlRdRsvd80 => exact ⟨_, rfl, .answered rfl _⟩
    | ctlWrPeak | ctlWrDoneCnt | ctlWrLastAcc | ctlWrCfgRatio | ctlWrCfgFrames | ctlWrRsvd20 | ctlWrRsvd40
    | ctlWrRsvd80 => exact ⟨_, rfl, .ignored rfl⟩
    | ctlWrCtrl a d => exact ⟨_, rfl, .wroteCtrl a d⟩
    | ctlWrStatus a d => exact ⟨_, rfl, .wroteStatus a d⟩
    | ctlWrShutdown a d => exact ⟨_, rfl, .wroteShutdown a d⟩
    | iqBeat v =>
      have h := s.block.iqReady_iff.1 hready
      exact ⟨_, exec_iqBeat_of_not_sink v h, .beat v h⟩
    | iqBeatLast v =>
      have h := s.block.iqReady_iff.1 hready
      exact ⟨_, exec_iqBeatLast_of_not_sink v h, .lastBeat v h⟩
    | snkAccept =>
      have h := s.block.snkValid_iff.1 hready
      exact ⟨_, exec_snkAccept_of_sink h, .accepted h⟩
    | snkError acc =>
      have h := s.block.snkValid_iff.1 hready
      exact ⟨_, exec_snkError_of_sink acc h, .sinkFailed acc h⟩
    | rst => exact ⟨_, rfl, .reset⟩

theorem effect_of_exec {i : Instr} {s t : State} (h : exec i s = .next t) : Effect s i t := by
  obtain ⟨u, hu, heffect⟩ := exec_effect i s
  rw [hu] at h
  cases h
  exact heffect

/-! ### Facts about the shared operations that several rules need -/

namespace Block

theorem startIfIdle_of_idle {b : Block} (h : b.phase = .idle) : b.startIfIdle = b.startInvocation := if_pos h

theorem startIfIdle_of_not_idle {b : Block} (h : b.phase ≠ .idle) : b.startIfIdle = b := if_neg h

/-- A buffer ends valid exactly where it is not cancelled and has its whole length (`40_invocation.md` R104). -/
theorem endBuffer_phase (p : Params) (b : Block) :
    (b.endBuffer p).phase =
      if b.invCancel = false ∧ b.overLen = false ∧ b.n = p.rawLen then .sink else .idle := by
  obtain ⟨hc, h⟩ | ⟨-, hwrong, h⟩ | ⟨hc, ho, hn, h⟩ := endBuffer_cases p b
  · simp [h, hc]
  · rw [h, if_neg]
    rintro ⟨-, ho, hn⟩
    simp [ho, hn] at hwrong
  · simp [h, hc, ho, hn]

/-- The frame accepted last ends the sink phase (`43_formatter.md` R164). -/
theorem acceptFrame_phase (p : Params) (b : Block) :
    (b.acceptFrame p).phase = if b.w + 1 = p.frames then .idle else b.phase := by
  obtain ⟨hw, h⟩ | ⟨hw, h⟩ := acceptFrame_cases p b <;> simp [h, hw]

end Block

end Sys2Proof.Machine

/-! The shape is kept by every operation, so by every step. -/

namespace Sys2Proof.Machine

namespace Block

section shape

variable {p : Params} {b : Block}

/-- Starting an invocation keeps the shape: it clears the counts. -/
theorem Shape.startIfIdle (hs : b.Shape p) : b.startIfIdle.Shape p := by
  obtain ⟨hidle, h⟩ | ⟨-, h⟩ := b.startIfIdle_cases
  · rw [h]
    exact { hs with
      n_le := Nat.zero_le _
      over_full := nofun
      collect_used := fun hcollect => by simp [hidle] at hcollect
      sink_valid := fun hsink => by simp [hidle] at hsink
      cancelled_unused := fun _ => rfl }
  · rwa [h]

/-- A beat outside `SINK` keeps the shape. -/
theorem Shape.dataBeat (hs : b.Shape p) (hsink : b.phase ≠ .sink) (v : Byte) : (b.dataBeat p v).Shape p where
  outbuf_length := by simp [hs.outbuf_length]
  n_le := by
    have := hs.n_le
    rw [dataBeat_n]
    split <;> omega
  over_full := by
    obtain ⟨-, h⟩ | ⟨-, hn, h⟩ | ⟨-, hn, h⟩ := dataBeat_cases p b v <;> rw [h]
    · exact hs.over_full
    · intro hover
      have hfull : b.n = p.rawLen := hs.over_full (by simpa using hover)
      omega
    · exact fun _ => hs.n_le.antisymm hn
  w_le := by simpa using hs.w_le
  lastAcc_le := by simpa using hs.lastAcc_le
  collect_used := by
    rw [dataBeat_phase, dataBeat_invCancel, dataBeat_n]
    intro hcollect hcancel
    have := hs.collect_used hcollect hcancel
    split <;> omega
  sink_valid := fun h => absurd (by simpa using h) hsink
  cancelled_unused := by
    rw [dataBeat_invCancel, dataBeat_n]
    intro hcancel
    simpa [hcancel] using hs.cancelled_unused hcancel

/-- A beat that is not discarded leaves at least one byte used. -/
theorem one_le_dataBeat_n (hlegal : p.legal = true) (v : Byte) (hcancel : b.invCancel = false) :
    1 ≤ (b.dataBeat p v).n := by
  have hlength : 2 ≤ p.rawLen := (legal_lengths hlegal).1
  rw [dataBeat_n]
  by_cases hn : b.n < p.rawLen
  · simp [hcancel, hn]
  · rw [if_neg (by simp [hn])]
    omega

/-- `IQ_BEAT` leads to `COLLECT` with the shape. -/
theorem Shape.beat (hlegal : p.legal = true) (hs : b.Shape p) (hsink : b.phase ≠ .sink) (v : Byte) :
    ({ b.dataBeat p v with phase := .collect } : Block).Shape p :=
  { hs.dataBeat hsink v with
    collect_used := fun _ hcancel => one_le_dataBeat_n hlegal v (by simpa using hcancel)
    sink_valid := nofun }

/-- The end of a buffer keeps the shape: `SINK` is entered only by a valid one. -/
theorem Shape.endBuffer (hlegal : p.legal = true) (hs : b.Shape p) : (b.endBuffer p).Shape p := by
  obtain ⟨-, h⟩ | ⟨-, -, h⟩ | ⟨hc, ho, hn, h⟩ := endBuffer_cases p b <;> rw [h]
  · exact { hs with collect_used := nofun, sink_valid := nofun }
  · exact { hs with collect_used := nofun, sink_valid := nofun }
  · obtain ⟨-, hframes, -⟩ := (legal_iff p).1 hlegal
    exact { hs with
      w_le := Nat.zero_le _
      collect_used := nofun
      sink_valid := fun _ => ⟨hframes, hn, ho, hc⟩ }

theorem endSink_lastAcc_le {acc : Nat} (hacc : acc ≤ p.frames) : (b.endSink p acc).lastAcc.toNat ≤ p.frames := by
  rw [endSink_lastAcc, BitVec.toNat_ofNat]
  exact (Nat.mod_le _ _).trans hacc

/-- The end of a sink phase keeps the shape, at any count of accepted frames in range. -/
theorem Shape.endSink (hs : b.Shape p) {acc : Nat} (hacc : acc ≤ p.frames) : (b.endSink p acc).Shape p :=
  { hs with
    lastAcc_le := endSink_lastAcc_le hacc
    collect_used := nofun
    sink_valid := nofun }

/-- An accepted frame keeps the shape: the index stays below `FRAMES` while the phase lasts. -/
theorem Shape.acceptFrame (hs : b.Shape p) (hsink : b.phase = .sink) : (b.acceptFrame p).Shape p := by
  obtain ⟨hw, hvalid⟩ := hs.sink_valid hsink
  have hcollect : b.phase ≠ .collect := by simp [hsink]
  obtain ⟨hmore, h⟩ | ⟨-, h⟩ := acceptFrame_cases p b <;> rw [h]
  · have hnext : b.w + 1 < p.frames := by omega
    exact { hs with w_le := hnext.le, sink_valid := fun _ => ⟨hnext, hvalid⟩ }
  · exact { hs with
      w_le := hw
      lastAcc_le := endSink_lastAcc_le le_rfl
      collect_used := nofun
      sink_valid := nofun }

theorem shape_reset (p : Params) : (Block.reset p).Shape p where
  outbuf_length := List.length_replicate
  n_le := Nat.zero_le _
  over_full := nofun
  w_le := Nat.zero_le _
  lastAcc_le := Nat.zero_le _
  collect_used := nofun
  sink_valid := nofun
  cancelled_unused := nofun

end shape

end Block

theorem Effect.keeps_cfg {i : Instr} {s t : State} (h : Effect s i t) : t.cfg = s.cfg := by
  cases h <;> rfl

/-- Every operation keeps the shape. -/
theorem Effect.keeps_shape {i : Instr} {s t : State} (h : Effect s i t) (hlegal : s.cfg.legal = true)
    (hs : s.block.Shape s.cfg) : t.block.Shape s.cfg := by
  cases h with
  | answered | ignored | waited => exact hs
  | wroteCtrl | wroteStatus | wroteShutdown => exact { hs with }
  | beat v hsink => exact hs.startIfIdle.beat hlegal (by simpa using hsink) v
  | lastBeat v hsink => exact (hs.startIfIdle.dataBeat (by simpa using hsink) v).endBuffer hlegal
  | accepted hsink => exact hs.acceptFrame hsink
  | sinkFailed acc hsink =>
    have hraised : s.block.raiseSinkErr.Shape s.cfg := { hs with }
    exact hraised.endSink hs.w_le
  | reset => exact Block.shape_reset _

/-- Settles O57: every outcome of an operation keeps the shape, and `step_keeps` carries it to the step. -/
theorem stepKeepsTheShape : Obligations.StepKeepsTheShape := fun _ _ hs h =>
  step_keeps (P := fun p b => p.legal = true ∧ b.Shape p)
    (fun _ _ _ ⟨hlegal, hshape⟩ hexec => by
      have heffect := effect_of_exec hexec
      rw [heffect.keeps_cfg]
      exact ⟨hlegal, heffect.keeps_shape hlegal hshape⟩)
    hs h

end Sys2Proof.Machine

/-! The whole-machine rules of `10_state.md`: the phase, the snapshots, `CANCEL` and the counters, each over all the
outcomes of an operation. -/

namespace Sys2Proof.Machine

/-! ### The phase (R30) -/

/-- With its next byte a buffer has exactly `RAWLEN` bytes if and only if it had one fewer and no excess. -/
theorem Block.dataBeat_completes_iff (p : Params) (b : Block) (v : Byte) :
    ((b.dataBeat p v).invCancel = false ∧ (b.dataBeat p v).overLen = false ∧ (b.dataBeat p v).n = p.rawLen) ↔
      b.invCancel = false ∧ b.overLen = false ∧ b.n + 1 = p.rawLen := by
  rw [dataBeat_invCancel, dataBeat_overLen, dataBeat_n]
  cases hc : b.invCancel with
  | true => simp
  | false =>
    by_cases hn : b.n < p.rawLen
    · simp [hn, Nat.not_le.2 hn]
    · have : b.n + 1 ≠ p.rawLen := by omega
      simp [Nat.le_of_not_lt hn, this]

section

variable {i : Instr} {s t : State}

/-- A control request keeps the phase. -/
theorem phase_of_ctl (hport : i.port = .ctl) (h : exec i s = .next t) : t.block.phase = s.block.phase := by
  cases effect_of_exec h with
  | answered | ignored | waited | wroteCtrl | wroteStatus | wroteShutdown => rfl
  | beat | lastBeat | accepted | sinkFailed | reset => cases hport

theorem phase_of_iqBeat {v : Byte} (h : exec (.iqBeat v) s = .next t) :
    t.block.phase = if s.block.phase = .sink then .sink else .collect := by
  by_cases hsink : s.block.phase = .sink
  · rw [exec_iq_of_sink rfl hsink] at h
    cases h
    rw [if_pos hsink, hsink]
  · rw [exec_iqBeat_of_not_sink v hsink] at h
    cases h
    rw [if_neg hsink]
    rfl

/-- In terms of the invocation as its first beat starts it. -/
theorem phase_of_iqBeatLast {v : Byte} (h : exec (.iqBeatLast v) s = .next t) (hsink : s.block.phase ≠ .sink) :
    t.block.phase =
      if s.block.startIfIdle.invCancel = false ∧ s.block.startIfIdle.overLen = false ∧
          s.block.startIfIdle.n + 1 = s.cfg.rawLen then .sink else .idle := by
  rw [exec_iqBeatLast_of_not_sink v hsink] at h
  cases h
  rw [State.withBlock_block, Block.endBuffer_phase]
  simp only [Block.dataBeat_completes_iff]

theorem phase_of_snkAccept (h : exec .snkAccept s = .next t) :
    t.block.phase =
      if s.block.phase = .sink ∧ s.block.w + 1 = s.cfg.frames then .idle else s.block.phase := by
  by_cases hsink : s.block.phase = .sink
  · rw [exec_snkAccept_of_sink hsink] at h
    cases h
    simp [Block.acceptFrame_phase, hsink]
  · rw [exec_snk_of_not_sink rfl hsink] at h
    cases h
    simp [hsink]

theorem phase_of_snkError {acc : BitVec 1} (h : exec (.snkError acc) s = .next t) :
    t.block.phase = if s.block.phase = .sink then .idle else s.block.phase := by
  by_cases hsink : s.block.phase = .sink
  · rw [exec_snkError_of_sink acc hsink] at h
    cases h
    rw [if_pos hsink]
    rfl
  · rw [exec_snk_of_not_sink rfl hsink] at h
    cases h
    rw [if_neg hsink]

end

/-- Settles O51. A buffer of one byte is never valid, because `RAWLEN` is at least 2. -/
theorem phaseMovesOnlyAsListed : Obligations.PhaseMovesOnlyAsListed := by
  intro i s t hlegal h
  cases i with
  | iqBeat v => exact phase_of_iqBeat h
  | iqBeatLast v =>
    cases hphase : s.block.phase with
    | idle =>
      have hlength : 2 ≤ s.cfg.rawLen := (legal_lengths hlegal).1
      rw [phase_of_iqBeatLast h (by simp [hphase]), Block.startIfIdle_of_idle hphase, if_neg]
      rintro ⟨-, -, hone⟩
      rw [Block.startInvocation_n] at hone
      omega
    | collect =>
      rw [phase_of_iqBeatLast h (by simp [hphase]), Block.startIfIdle_of_not_idle (by simp [hphase])]
    | sink =>
      rw [exec_iq_of_sink rfl hphase] at h
      cases h
      exact hphase
  | snkAccept => exact phase_of_snkAccept h
  | snkError acc => exact phase_of_snkError h
  | rst => cases h; rfl
  | _ => exact phase_of_ctl rfl h

/-! ### The snapshots (R31) -/

/-- Settles O52: within an invocation no beat starts another, and nothing but the start and reset writes a snapshot. -/
theorem snapshotsHoldThroughTheInvocation : Obligations.SnapshotsHoldThroughTheInvocation := by
  intro i s t hbusy hrst h
  cases effect_of_exec h with
  | answered | ignored | waited | wroteCtrl | wroteStatus | wroteShutdown => exact ⟨rfl, rfl, rfl⟩
  | beat | lastBeat => simp [Block.startIfIdle_of_not_idle hbusy]
  | accepted | sinkFailed => simp
  | reset => exact absurd rfl hrst

/-! ### `CANCEL` (R24) -/

theorem Effect.cancel_cases {i : Instr} {s t : State} (h : Effect s i t) :
    t.block.cancel = s.block.cancel ∨ i = .rst ∨
      ∃ a d, i = .ctlWrShutdown a d ∧ t.block.cancel = (s.block.cancel || d.getLsbD 0) := by
  cases h with
  | answered | ignored | waited | wroteCtrl | wroteStatus => exact .inl rfl
  | beat | lastBeat | accepted | sinkFailed => exact .inl (by simp)
  | reset => exact .inr (.inl rfl)
  | wroteShutdown a d => exact .inr (.inr ⟨a, d, rfl, rfl⟩)

/-- Settles O53. -/
theorem cancelMovesOnlyByShutdownAndReset : Obligations.CancelMovesOnlyByShutdownAndReset := by
  intro i s t h
  obtain hkept | rfl | ⟨a, d, rfl, hset⟩ := (effect_of_exec h).cancel_cases
  · rw [hkept]
    exact ⟨fun h1 h0 => by simp [h1] at h0, fun h0 h1 => by simp [h0] at h1⟩
  · cases h
    simp [Block.reset]
  · rw [hset]
    constructor
    · intro h1 h0
      simp [h1] at h0
    · intro h0 h1
      exact ⟨a, d, rfl, by simpa [h0] using h1⟩

/-! ### `DONE_CNT`, `PEAK` and `LAST_ACC` (R27 to R29) -/

/-- Every operation but reset either ends a sink phase, or leaves the three counters and ends none. -/
theorem Effect.counters_cases {i : Instr} {s t : State} (h : Effect s i t) (hrst : i ≠ .rst) :
    (s.block.phase = .sink ∧ t.block.phase = .idle ∧ t.block.doneCnt = s.block.doneCnt + 1 ∧
      t.block.peak = magBits s.cfg.scale s.block.emax) ∨
    (¬(s.block.phase = .sink ∧ t.block.phase = .idle) ∧ t.block.doneCnt = s.block.doneCnt ∧
      t.block.peak = s.block.peak ∧ t.block.lastAcc = s.block.lastAcc) := by
  cases h with
  | answered | ignored | waited | wroteCtrl | wroteStatus | wroteShutdown =>
    exact .inr ⟨fun ⟨hsink, hidle⟩ => by simp [hsink] at hidle, rfl, rfl, rfl⟩
  | beat v hsink | lastBeat v hsink => exact .inr ⟨fun hend => hsink hend.1, by simp⟩
  | accepted hsink =>
    obtain ⟨-, hb⟩ | ⟨-, hb⟩ := s.block.acceptFrame_cases s.cfg
    · exact .inr (by simp [hb, hsink])
    · exact .inl (by simp [hb, hsink])
  | sinkFailed acc hsink => exact .inl ⟨hsink, rfl, rfl, rfl⟩
  | reset => exact absurd rfl hrst

/-- Settles O55. -/
theorem countersMoveOnlyAtTheEndOfASinkPhase : Obligations.CountersMoveOnlyAtTheEndOfASinkPhase := by
  intro i s t hrst h
  obtain ⟨hsink, hidle, hdone, hpeak⟩ | ⟨hno, hkept⟩ := (effect_of_exec h).counters_cases hrst
  · exact ⟨fun _ => ⟨by rw [hdone, BitVec.toNat_add]; rfl, hpeak⟩, fun hno => absurd ⟨hsink, hidle⟩ hno⟩
  · exact ⟨fun hend => absurd hend hno, fun _ => hkept⟩

end Sys2Proof.Machine

/-! Noninterference of invocations (`10_state.md` R39). Two runs are related while they collect by `SameInvocation`
and while they offer by `SameOffer`. The first leaves out what no beat reads, and every frame of `OUTBUF` that this
invocation has not completed; a valid buffer completes all of them, so the second can ask for the whole of `OUTBUF`. -/

namespace Sys2Proof

/-- A byte ends its frame exactly where the bytes up to it are a whole number of frames. -/
theorem endsFrame_iff_dvd {p : Params} (hlegal : p.legal = true) (n : Nat) :
    p.endsFrame n = true ↔ p.frameLen ∣ n + 1 := by
  obtain ⟨m, hm⟩ : ∃ m, p.frameLen = m + 1 :=
    Nat.exists_eq_add_of_le' (Nat.le_of_succ_le (legal_lengths hlegal).2)
  rw [endsFrame_iff, Nat.dvd_iff_mod_eq_zero, hm, Nat.succ_mod_succ_eq_zero_iff, Nat.add_sub_cancel]

namespace Machine

namespace Block

/-! ### The beat, case by case -/

section beat

variable {p : Params} {b : Block} (v : Byte)

theorem dataBeat_of_cancelled (hc : b.invCancel = true) : b.dataBeat p v = b := if_pos hc

theorem dataBeat_of_lt (hc : b.invCancel = false) (hn : b.n < p.rawLen) : b.dataBeat p v = b.useByte p v := by
  rw [dataBeat, if_neg (by simp [hc]), if_pos hn]

theorem dataBeat_of_ge (hc : b.invCancel = false) (hn : p.rawLen ≤ b.n) :
    b.dataBeat p v = { b with overLen := true } := by
  rw [dataBeat, if_neg (by simp [hc]), if_neg hn.not_gt]

theorem useByte_of_endsFrame (h : p.endsFrame b.n = true) :
    b.useByte p v = { (b.accumulate b.n v).completeFrame p (b.n / p.frameLen) with n := b.n + 1 } := if_pos h

theorem useByte_of_not_endsFrame (h : p.endsFrame b.n = false) :
    b.useByte p v = { b.accumulate b.n v with n := b.n + 1 } := if_neg (by simp [h])

end beat

/-! ### Two blocks in the same invocation -/

/-- The two blocks agree on what the beats of an invocation read and on the frames it has completed. -/
structure SameInvocation (p : Params) (b c : Block) : Prop where
  invCancel : b.invCancel = c.invCancel
  invRoute : b.invRoute = c.invRoute
  invClamp : b.invClamp = c.invClamp
  n : b.n = c.n
  overLen : b.overLen = c.overLen
  accI : b.accI = c.accI
  accQ : b.accQ = c.accQ
  outbuf_length : b.outbuf.length = p.frames
  outbuf_length' : c.outbuf.length = p.frames
  completed : ∀ j, j < b.n / p.frameLen → b.outbuf[j]? = c.outbuf[j]?

namespace SameInvocation

variable {p : Params} {b c : Block}

/-- The first beat starts the same invocation wherever the three control fields that are snapshotted agree. -/
theorem start (hcancel : b.cancel = c.cancel) (hroute : b.route = c.route) (hclamp : b.clamp = c.clamp)
    (hb : b.outbuf.length = p.frames) (hc : c.outbuf.length = p.frames) :
    b.startInvocation.SameInvocation p c.startInvocation where
  invCancel := hcancel
  invRoute := hroute
  invClamp := hclamp
  n := rfl
  overLen := rfl
  accI := rfl
  accQ := rfl
  outbuf_length := hb
  outbuf_length' := hc
  completed := fun j hj => by simp at hj

theorem accumulate (h : b.SameInvocation p c) (m : Nat) (v : Byte) :
    (b.accumulate m v).SameInvocation p (c.accumulate m v) where
  invCancel := by simpa using h.invCancel
  invRoute := by simpa using h.invRoute
  invClamp := by simpa using h.invClamp
  n := by simpa using h.n
  overLen := by simpa using h.overLen
  accI := by simp [h.accI]
  accQ := by simp [h.accQ]
  outbuf_length := by simpa using h.outbuf_length
  outbuf_length' := by simpa using h.outbuf_length'
  completed := by simpa using h.completed

/-- The frame that the last byte of a frame stores is the same in both blocks, wherever it falls. -/
theorem completeFrame_getElem? (h : b.SameInvocation p c) (j k : Nat) (hjk : j = k ∨ b.outbuf[j]? = c.outbuf[j]?) :
    (b.completeFrame p k).outbuf[j]? = (c.completeFrame p k).outbuf[j]? := by
  have hlength : b.outbuf.length = c.outbuf.length := h.outbuf_length.trans h.outbuf_length'.symm
  simp only [completeFrame, List.getElem?_set, h.accI, h.accQ, h.invRoute, h.invClamp, hlength]
  obtain rfl | hj := hjk
  · simp only [if_pos]
  · rw [hj]

theorem completeFrame (h : b.SameInvocation p c) (k : Nat) :
    (b.completeFrame p k).SameInvocation p (c.completeFrame p k) where
  invCancel := by simpa using h.invCancel
  invRoute := by simpa using h.invRoute
  invClamp := by simpa using h.invClamp
  n := by simpa using h.n
  overLen := by simpa using h.overLen
  accI := by simp
  accQ := by simp
  outbuf_length := by simpa using h.outbuf_length
  outbuf_length' := by simpa using h.outbuf_length'
  completed := fun j hj => h.completeFrame_getElem? j k (.inr (h.completed j (by simpa using hj)))

/-- The count may move on as far as the completed frames agree. -/
theorem withCount (h : b.SameInvocation p c) {m : Nat}
    (hcompleted : ∀ j, j < m / p.frameLen → b.outbuf[j]? = c.outbuf[j]?) :
    ({ b with n := m } : Block).SameInvocation p { c with n := m } :=
  { h with n := rfl, completed := hcompleted }

theorem useByte (hlegal : p.legal = true) (h : b.SameInvocation p c) (v : Byte) :
    (b.useByte p v).SameInvocation p (c.useByte p v) := by
  have hsums := h.accumulate b.n v
  cases hend : p.endsFrame b.n with
  | true =>
    have hdiv := Nat.succ_div_of_dvd ((endsFrame_iff_dvd hlegal _).1 hend)
    rw [useByte_of_endsFrame v hend, useByte_of_endsFrame v (h.n ▸ hend), ← h.n]
    refine (hsums.completeFrame _).withCount fun j hj => hsums.completeFrame_getElem? j _ ?_
    rw [hdiv, Nat.lt_succ_iff_lt_or_eq] at hj
    exact hj.symm.imp_right fun hlt => hsums.completed j (by simpa using hlt)
  | false =>
    have hdiv := Nat.succ_div_of_not_dvd (mt (endsFrame_iff_dvd hlegal b.n).2 (by simp [hend]))
    rw [useByte_of_not_endsFrame v hend, useByte_of_not_endsFrame v (h.n ▸ hend), ← h.n]
    refine hsums.withCount fun j hj => hsums.completed j ?_
    rw [hdiv] at hj
    simpa using hj

theorem dataBeat (hlegal : p.legal = true) (h : b.SameInvocation p c) (v : Byte) :
    (b.dataBeat p v).SameInvocation p (c.dataBeat p v) := by
  obtain ⟨hc, hb⟩ | ⟨hc, hn, hb⟩ | ⟨hc, hn, hb⟩ := dataBeat_cases p b v <;> rw [hb]
  · rwa [dataBeat_of_cancelled v (h.invCancel ▸ hc)]
  · rw [dataBeat_of_lt v (h.invCancel ▸ hc) (h.n ▸ hn)]
    exact h.useByte hlegal v
  · rw [dataBeat_of_ge v (h.invCancel ▸ hc) (h.n ▸ hn)]
    exact { h with overLen := rfl }

/-- Once a buffer has its whole length, every frame is one this invocation has completed. -/
theorem outbuf_eq (hlegal : p.legal = true) (h : b.SameInvocation p c) (hn : b.n = p.rawLen) :
    b.outbuf = c.outbuf := by
  have hlen : 0 < p.frameLen := Nat.lt_of_lt_of_le Nat.zero_lt_two (legal_lengths hlegal).2
  have hframes : b.n / p.frameLen = p.frames := by rw [hn, rawLen_eq, Nat.mul_div_cancel _ hlen]
  refine List.ext_getElem? fun j => ?_
  by_cases hj : j < p.frames
  · exact h.completed j (hframes ▸ hj)
  · rw [List.getElem?_eq_none (by rw [h.outbuf_length]; omega),
      List.getElem?_eq_none (by rw [h.outbuf_length']; omega)]

end SameInvocation

/-! ### Two blocks that offer the same frames -/

/-- The two blocks are in the same phase, and in `SINK` they have the same frames to go. -/
structure SameOffer (b c : Block) : Prop where
  phase : b.phase = c.phase
  w : b.phase = .sink → b.w = c.w
  outbuf : b.phase = .sink → b.outbuf = c.outbuf

theorem endBuffer_of_sink {p : Params} {b : Block} (h : (b.endBuffer p).phase = .sink) :
    b.n = p.rawLen ∧ (b.endBuffer p).w = 0 := by
  obtain ⟨-, hb⟩ | ⟨-, -, hb⟩ | ⟨-, -, hn, hb⟩ := endBuffer_cases p b
  · simp [hb] at h
  · simp [hb] at h
  · exact ⟨hn, by rw [hb]⟩

/-- The same invocation ends in the same offer (`40_invocation.md` R104). -/
theorem SameInvocation.endBuffer {p : Params} {b c : Block} (hlegal : p.legal = true)
    (h : b.SameInvocation p c) : (b.endBuffer p).SameOffer (c.endBuffer p) := by
  have hphase : (b.endBuffer p).phase = (c.endBuffer p).phase := by
    rw [endBuffer_phase, endBuffer_phase, h.invCancel, h.overLen, h.n]
  refine ⟨hphase, fun hsink => ?_, fun hsink => ?_⟩
  · rw [(endBuffer_of_sink hsink).2, (endBuffer_of_sink (hphase ▸ hsink)).2]
  · simpa using h.outbuf_eq hlegal (endBuffer_of_sink hsink).1

namespace SameOffer

variable {b c d : Block}

theorem symm (h : b.SameOffer c) : c.SameOffer b where
  phase := h.phase.symm
  w := fun hsink => (h.w (h.phase.trans hsink)).symm
  outbuf := fun hsink => (h.outbuf (h.phase.trans hsink)).symm

theorem trans (h : b.SameOffer c) (h' : c.SameOffer d) : b.SameOffer d where
  phase := h.phase.trans h'.phase
  w := fun hsink => (h.w hsink).trans (h'.w (h.phase ▸ hsink))
  outbuf := fun hsink => (h.outbuf hsink).trans (h'.outbuf (h.phase ▸ hsink))

theorem snkData (h : b.SameOffer c) (hsink : b.phase = .sink) : b.snkData = c.snkData := by
  rw [Block.snkData, Block.snkData, h.w hsink, h.outbuf hsink]

theorem acceptFrame (h : b.SameOffer c) (hsink : b.phase = .sink) (p : Params) :
    (b.acceptFrame p).SameOffer (c.acceptFrame p) where
  phase := by rw [acceptFrame_phase, acceptFrame_phase, h.w hsink, h.phase]
  w := fun _ => by rw [acceptFrame_w, acceptFrame_w, h.w hsink]
  outbuf := fun _ => by rw [acceptFrame_outbuf, acceptFrame_outbuf, h.outbuf hsink]

end SameOffer

end Block

/-! ### A buffer leaves what its bytes alone leave -/

theorem runOps_cons {i : Instr} {later : List Instr} {s u : State} (h : exec i s = .next u) :
    runOps (i :: later) s = runOps later u := by
  simp only [runOps, h]

theorem beatByte_of_ctl {i : Instr} (h : i.port = .ctl) : beatByte i = none := by
  cases i with
  | iqBeat => cases h
  | _ => rfl

/-- A control request takes no part in the invocation and delivers nothing (`60_exceptions.md` R226). -/
theorem Effect.of_ctl {i : Instr} {s t : State} (h : Effect s i t) (hport : i.port = .ctl) {p : Params} {c : Block}
    (hs : s.block.SameInvocation p c) : t.block.SameInvocation p c ∧ t.env.sinkGot = s.env.sinkGot := by
  cases h with
  | answered | ignored | waited => exact ⟨hs, rfl⟩
  | wroteCtrl | wroteStatus | wroteShutdown => exact ⟨{ hs with }, rfl⟩
  | beat | lastBeat | accepted | sinkFailed | reset => cases hport

section buffer

variable {p : Params} (hlegal : p.legal = true)
include hlegal

/-- Between the first beat and the last, only the bytes reach the invocation. -/
theorem runOps_within {ops : List Instr} (hops : WithinBuffer ops) {s : State} {c : Block} (hcfg : s.cfg = p)
    (hcollect : s.block.phase = .collect) (hsame : s.block.SameInvocation p c) :
    ∃ t, runOps ops s = .next t ∧ t.cfg = p ∧ t.env.sinkGot = s.env.sinkGot ∧ t.block.phase = .collect ∧
      t.block.SameInvocation p ((ops.filterMap beatByte).foldl (Block.dataBeat p) c) := by
  induction ops generalizing s c with
  | nil => exact ⟨s, rfl, hcfg, rfl, hcollect, hsame⟩
  | cons i later ih =>
    obtain ⟨hi, hlater⟩ := List.forall_mem_cons.1 hops
    obtain hport | ⟨v, rfl⟩ := hi
    · obtain ⟨u, hu, heffect⟩ := exec_effect i s
      obtain ⟨husame, hugot⟩ := heffect.of_ctl hport hsame
      rw [runOps_cons hu, List.filterMap_cons_none (beatByte_of_ctl hport), ← hugot]
      exact ih hlater (heffect.keeps_cfg.trans hcfg) ((phase_of_ctl hport hu).trans hcollect) husame
    · subst hcfg
      rw [runOps_cons (exec_iqBeat_of_not_sink v (by simp [hcollect])),
        Block.startIfIdle_of_not_idle (by simp [hcollect]), List.filterMap_cons_some (f := beatByte) rfl, List.foldl_cons]
      exact ih hlater rfl rfl { hsame.dataBeat hlegal v with }

theorem runOps_lastBeat (v : Byte) {s : State} {c : Block} (hcfg : s.cfg = p) (hsink : s.block.phase ≠ .sink)
    (hsame : s.block.startIfIdle.SameInvocation p c) :
    ∃ t, runOps [.iqBeatLast v] s = .next t ∧ t.cfg = p ∧ t.env.sinkGot = s.env.sinkGot ∧
      t.block.SameOffer ((c.dataBeat p v).endBuffer p) := by
  subst hcfg
  exact ⟨_, runOps_cons (exec_iqBeatLast_of_not_sink v hsink), rfl, rfl, (hsame.dataBeat hlegal v).endBuffer hlegal⟩

/-- A buffer leaves the offer that its bytes alone make of the invocation its first beat starts. -/
theorem runOps_buffer {bytes : List Byte} {ops : List Instr} (hbuffer : BringsBuffer bytes ops) {s : State}
    {c : Block} (hcfg : s.cfg = p) (hidle : s.block.phase = .idle)
    (hsame : s.block.startInvocation.SameInvocation p c) :
    ∃ t, runOps ops s = .next t ∧ t.cfg = p ∧ t.env.sinkGot = s.env.sinkGot ∧
      t.block.SameOffer ((bytes.foldl (Block.dataBeat p) c).endBuffer p) := by
  have hsink : s.block.phase ≠ .sink := by simp [hidle]
  rw [← Block.startIfIdle_of_idle hidle] at hsame
  cases hbuffer with
  | single v => exact runOps_lastBeat hlegal v hcfg hsink hsame
  | several first last between hbetween =>
    subst hcfg
    obtain ⟨u, hu, hucfg, hugot, hcollect, husame⟩ := runOps_within hlegal hbetween
      (s := s.withBlock { s.block.startIfIdle.dataBeat s.cfg first with phase := .collect }) rfl rfl
      { hsame.dataBeat hlegal first with }
    obtain ⟨t, ht, htcfg, htgot, htoffer⟩ := runOps_lastBeat hlegal last hucfg (by simp [hcollect])
      (by rwa [Block.startIfIdle_of_not_idle (by simp [hcollect])])
    refine ⟨t, ?_, htcfg, htgot.trans hugot, ?_⟩
    · rw [runOps_cons (exec_iqBeat_of_not_sink first hsink), runOps_append hu, ht]
    · simpa using htoffer

end buffer

/-! ### The same offer is answered alike -/

/-- One answer of the Sink delivers the same to both and leaves them the same offer (`43_formatter.md` R164, R165). -/
theorem exec_answer {i : Instr} (hport : i.port = .snk) {s₁ s₂ : State} (hcfg : s₁.cfg = s₂.cfg)
    (h : s₁.block.SameOffer s₂.block) :
    ∃ u₁ u₂ sent, exec i s₁ = .next u₁ ∧ exec i s₂ = .next u₂ ∧ u₁.cfg = u₂.cfg ∧ u₁.block.SameOffer u₂.block ∧
      u₁.env.sinkGot = s₁.env.sinkGot ++ sent ∧ u₂.env.sinkGot = s₂.env.sinkGot ++ sent := by
  by_cases hsink : s₁.block.phase = .sink
  · have hsink' := h.phase ▸ hsink
    cases i with
    | snkAccept =>
      refine ⟨_, _, s₁.block.snkData.toList, exec_snkAccept_of_sink hsink, exec_snkAccept_of_sink hsink', hcfg, ?_, rfl,
        ?_⟩
      · exact hcfg ▸ h.acceptFrame hsink s₁.cfg
      · rw [h.snkData hsink]
        rfl
    | snkError acc =>
      exact ⟨_, _, [], exec_snkError_of_sink acc hsink, exec_snkError_of_sink acc hsink', hcfg, ⟨rfl, nofun, nofun⟩,
        (List.append_nil _).symm, (List.append_nil _).symm⟩
    | _ => cases hport
  · exact ⟨s₁, s₂, [], exec_snk_of_not_sink hport hsink, exec_snk_of_not_sink hport (h.phase ▸ hsink), hcfg, h,
      (List.append_nil _).symm, (List.append_nil _).symm⟩

theorem runOps_answers {answers : List Instr} (hports : ∀ i ∈ answers, i.port = .snk) {s₁ s₂ : State}
    (hcfg : s₁.cfg = s₂.cfg) (h : s₁.block.SameOffer s₂.block) :
    ∃ t₁ t₂ sent, runOps answers s₁ = .next t₁ ∧ runOps answers s₂ = .next t₂ ∧
      t₁.env.sinkGot = s₁.env.sinkGot ++ sent ∧ t₂.env.sinkGot = s₂.env.sinkGot ++ sent := by
  induction answers generalizing s₁ s₂ with
  | nil => exact ⟨s₁, s₂, [], rfl, rfl, (List.append_nil _).symm, (List.append_nil _).symm⟩
  | cons i later ih =>
    obtain ⟨hport, hlater⟩ := List.forall_mem_cons.1 hports
    obtain ⟨u₁, u₂, first, hu₁, hu₂, hucfg, huoffer, hugot₁, hugot₂⟩ := exec_answer hport hcfg h
    obtain ⟨t₁, t₂, rest, ht₁, ht₂, htgot₁, htgot₂⟩ := ih hlater hucfg huoffer
    refine ⟨t₁, t₂, first ++ rest, (runOps_cons hu₁).trans ht₁, (runOps_cons hu₂).trans ht₂, ?_, ?_⟩
    · rw [htgot₁, hugot₁, List.append_assoc]
    · rw [htgot₂, hugot₂, List.append_assoc]

/-- Settles O46: both buffers leave the offer that the bytes make of the first state's invocation, so the answers find
the same offer. -/
theorem sentFramesDependOnlyOnBytesAndSnapshots : Obligations.SentFramesDependOnlyOnBytesAndSnapshots := by
  intro s₁ s₂ bytes ops₁ ops₂ answers hcfg hlegal hlength₁ hlength₂ hidle₁ hidle₂ hcancel hroute hclamp hbuffer₁ hbuffer₂
    hanswers
  obtain ⟨u₁, hu₁, hucfg₁, hugot₁, huoffer₁⟩ :=
    runOps_buffer hlegal hbuffer₁ rfl hidle₁ (.start rfl rfl rfl hlength₁ hlength₁)
  obtain ⟨u₂, hu₂, hucfg₂, hugot₂, huoffer₂⟩ :=
    runOps_buffer hlegal hbuffer₂ hcfg.symm hidle₂
      (.start hcancel.symm hroute.symm hclamp.symm (hcfg ▸ hlength₂) hlength₁)
  obtain ⟨t₁, t₂, sent, ht₁, ht₂, htgot₁, htgot₂⟩ :=
    runOps_answers hanswers (hucfg₁.trans hucfg₂.symm) (huoffer₁.trans huoffer₂.symm)
  exact ⟨t₁, t₂, sent, (runOps_append hu₁).trans ht₁, (runOps_append hu₂).trans ht₂, hugot₁ ▸ htgot₁, hugot₂ ▸ htgot₂⟩

end Machine

end Sys2Proof

/-! The control port as memory (`20_memory.md`): a request reaches a register by its number alone (R54, R58), and a
write that is repeated changes nothing more (R57). -/

namespace Sys2Proof.Machine

/-! ### A request by its register number -/

/-- What a read of register `reg` is answered (`20_memory.md` R58); `SHUTDOWN` and the registers
with no name read 0. -/
def State.readData (s : State) (reg : BitVec 6) : Word :=
  match reg.toNat with
  | 0 => s.block.ctrlWord
  | 1 => s.block.statusWord
  | 3 => s.block.peak
  | 4 => s.block.doneCnt
  | 5 => s.block.lastAcc
  | 6 => BitVec.ofNat 32 s.cfg.ratio
  | 7 => BitVec.ofNat 32 s.cfg.frames
  | _ => 0

/-- The block after a write of `d` to register `reg`; only three registers can be written (`20_memory.md` R57). -/
def Block.writeReg (b : Block) (reg : BitVec 6) (d : Word) : Block :=
  match reg.toNat with
  | 0 => b.writeCtrl d
  | 1 => b.writeStatus d
  | 2 => b.writeShutdown d
  | _ => b

/-- A read answers its register, which `ADDR[7:2]` alone selects. -/
theorem exec_decodeRead (off : Byte) (d : Word) (s : State) :
    exec (decodeRead off d) s = .next (s.answer (s.readData (off.extractLsb' 2 6))) := by
  unfold decodeRead State.readData
  split
  case h_9 => split_ifs <;> simp only [*] <;> rfl
  all_goals simp only [*]; rfl

/-- A write acts on its register, which `ADDR[7:2]` alone selects. -/
theorem exec_decodeWrite (off : Byte) (d : Word) (s : State) :
    exec (decodeWrite off d) s = .next (s.withBlock (s.block.writeReg (off.extractLsb' 2 6) d)) := by
  unfold decodeWrite Block.writeReg
  split
  case h_9 => split_ifs <;> simp only [*] <;> rfl
  all_goals simp only [*]; rfl

/-- Settles O5: neither outcome reads anything of the address but the register number. -/
theorem ignoredRequestBitsHaveNoEffect : Obligations.IgnoredRequestBitsHaveNoEffect := by
  intro reg a a' d d' s
  simp only [decodeCtl_write, decodeCtl_read, exec_decodeWrite, exec_decodeRead, namedOffset_register, and_self]

/-! ### Repeated writes -/

/-- Whatever mode the two bits select, selecting it again keeps it. -/
theorem Route.write_write (r : Route) (bits : BitVec 2) : (r.write bits).write bits = r.write bits := by
  unfold Route.write
  split_ifs <;> rfl

namespace Block

variable (b : Block) (d : Word)

theorem writeCtrl_writeCtrl : (b.writeCtrl d).writeCtrl d = b.writeCtrl d := by
  simp only [writeCtrl, Route.write_write]

theorem writeStatus_writeStatus : (b.writeStatus d).writeStatus d = b.writeStatus d := by
  simp only [writeStatus, Bool.and_assoc, Bool.and_self]

theorem writeShutdown_writeShutdown : (b.writeShutdown d).writeShutdown d = b.writeShutdown d := by
  simp only [writeShutdown, Bool.or_assoc, Bool.or_self]

end Block

/-- Settles O18: each of the three writes is idempotent on the block, and touches nothing else. -/
theorem controlWritesAreIdempotent : Obligations.ControlWritesAreIdempotent := by
  intro a d s t i hi h
  obtain rfl | rfl | rfl := hi <;> cases h
  · exact congrArg (Host.Outcome.next ∘ s.withBlock) (s.block.writeCtrl_writeCtrl d)
  · exact congrArg (Host.Outcome.next ∘ s.withBlock) (s.block.writeStatus_writeStatus d)
  · exact congrArg (Host.Outcome.next ∘ s.withBlock) (s.block.writeShutdown_writeShutdown d)

end Sys2Proof.Machine

/-! The order in which the Sink is given the frames (`20_memory.md` R60 (b)). -/

namespace Sys2Proof.Machine

/-- The frame offered is the first of those still to go. -/
theorem Block.snkData_toList (b : Block) :
    b.snkData.toList = ((b.outbuf.drop b.w).take 1).map Frame.word := by
  rw [Block.snkData, List.take_one, List.head?_drop, Option.toList_map]

/-- In a sink phase with frames to go, `k` accepts deliver the next `k` of them and end the phase exactly with the last
one (`43_formatter.md` R164, R166). -/
theorem runOps_accepts (k : Nat) {s : State} (hsink : s.block.phase = .sink) (hw : s.block.w < s.cfg.frames)
    (hk : s.block.w + k ≤ s.cfg.frames) :
    ∃ t, runOps (List.replicate k .snkAccept) s = .next t ∧
      t.env.sinkGot = s.env.sinkGot ++ ((s.block.outbuf.drop s.block.w).take k).map Frame.word ∧
      (t.block.phase = .idle ↔ s.block.w + k = s.cfg.frames) ∧
      (s.block.w + k = s.cfg.frames → t.block.lastAcc = BitVec.ofNat 32 s.cfg.frames ∧
        t.block.doneCnt = s.block.doneCnt + 1) := by
  induction k generalizing s with
  | zero => exact ⟨s, rfl, by simp, by simp [hsink, hw.ne], fun hend => absurd hend hw.ne⟩
  | succ k ih =>
    rw [List.replicate_succ, runOps_cons (exec_snkAccept_of_sink hsink)]
    obtain ⟨hmore, hb⟩ | ⟨hlast, hb⟩ := s.block.acceptFrame_cases s.cfg <;> rw [hb]
    · obtain ⟨t, ht, hgot, hend, hcount⟩ := ih (s := s.deliver.withBlock { s.block with w := s.block.w + 1 }) hsink
        (show s.block.w + 1 < s.cfg.frames by omega) (show s.block.w + 1 + k ≤ s.cfg.frames by omega)
      have hnext : s.block.w + (k + 1) = s.block.w + 1 + k := by omega
      refine ⟨t, ht, ?_, hnext ▸ hend, hnext ▸ hcount⟩
      rw [hgot, Nat.add_comm k 1, List.take_add, List.drop_drop, List.map_append]
      simp [Block.snkData_toList]
    · obtain rfl : k = 0 := by omega
      refine ⟨_, rfl, ?_, by simp [hlast], fun _ => ⟨rfl, rfl⟩⟩
      simp [Block.snkData_toList]

/-- Settles O47: the shape has a frame to go in every sink phase. -/
theorem acceptsDeliverFramesInOrder : Obligations.AcceptsDeliverFramesInOrder :=
  fun _ k ⟨_, hshape⟩ hsink hk => runOps_accepts k hsink (hshape.sink_valid hsink).1 hk

end Sys2Proof.Machine

/-! After shutdown (`20_memory.md` R62, `70_reset_and_hazards.md` R244). While reset is not asserted, `CANCEL` stays set,
so every later invocation is a cancelled one: it never reaches `SINK`, and only a sink phase sends or counts. -/

namespace Sys2Proof.Machine

/-- `CANCEL` is set and no invocation that began before it is in flight. -/
structure Block.ShutDown (b : Block) : Prop where
  cancel : b.cancel = true
  not_sink : b.phase ≠ .sink
  collect_cancelled : b.phase = .collect → b.invCancel = true

/-- The block is shut down, and reset will never be asserted. -/
structure State.ShutDown (s : State) : Prop where
  block : s.block.ShutDown
  reset_low : ∀ l ∈ s.env.rstIn, l = 0

/-- From `s` to `t` no frame has been sent and nothing has been counted. -/
structure State.SentNothing (s t : State) : Prop where
  sinkGot : t.env.sinkGot = s.env.sinkGot
  doneCnt : t.block.doneCnt = s.block.doneCnt
  peak : t.block.peak = s.block.peak
  lastAcc : t.block.lastAcc = s.block.lastAcc

namespace State.SentNothing

theorem refl (s : State) : s.SentNothing s := ⟨rfl, rfl, rfl, rfl⟩

theorem trans {s t u : State} (h : s.SentNothing t) (h' : t.SentNothing u) : s.SentNothing u where
  sinkGot := h'.sinkGot.trans h.sinkGot
  doneCnt := h'.doneCnt.trans h.doneCnt
  peak := h'.peak.trans h.peak
  lastAcc := h'.lastAcc.trans h.lastAcc

theorem turn (s : State) (later : List Port) : s.SentNothing (s.turn later) := ⟨rfl, rfl, rfl, rfl⟩

theorem take (s : State) (p : Port) : s.SentNothing (s.take p) := ⟨Env.taken_sinkGot _ p, rfl, rfl, rfl⟩

end State.SentNothing

/-! ### Every operation but reset keeps it -/

/-- The invocation that a beat belongs to is a cancelled one, begun now or before (`40_invocation.md` R103). -/
theorem Block.ShutDown.startIfIdle_invCancel {b : Block} (h : b.ShutDown) : b.startIfIdle.invCancel = true := by
  cases hphase : b.phase with
  | idle => rw [Block.startIfIdle_of_idle hphase, Block.startInvocation_invCancel, h.cancel]
  | collect => rw [Block.startIfIdle_of_not_idle (by simp [hphase]), h.collect_cancelled hphase]
  | sink => exact absurd hphase h.not_sink

section operation

variable {i : Instr} {s t : State}

theorem Effect.keeps_shutDown (h : Effect s i t) (hrst : i ≠ .rst) (hs : s.block.ShutDown) : t.block.ShutDown := by
  cases h with
  | answered | ignored | waited | wroteCtrl | wroteStatus => exact { hs with }
  | wroteShutdown a d => exact { hs with cancel := by simp [hs.cancel] }
  | beat v => exact ⟨by simp [hs.cancel], nofun, fun _ => by simp [hs.startIfIdle_invCancel]⟩
  | lastBeat v =>
    have hidle : ((s.block.startIfIdle.dataBeat s.cfg v).endBuffer s.cfg).phase = .idle := by
      rw [Block.endBuffer_phase, Block.dataBeat_invCancel, hs.startIfIdle_invCancel, if_neg (by simp)]
    exact ⟨by simp [hs.cancel], by simp [hidle], by simp [hidle]⟩
  | accepted hsink | sinkFailed _ hsink => exact absurd hsink hs.not_sink
  | reset => exact absurd rfl hrst

/-- Frames are sent in `SINK` only, and the counters move only where a sink phase ends. -/
theorem Effect.sentNothing (h : Effect s i t) (hrst : i ≠ .rst) (hsink : s.block.phase ≠ .sink) : s.SentNothing t := by
  obtain ⟨hphase, -⟩ | ⟨-, hdone, hpeak, hlast⟩ := h.counters_cases hrst
  · exact absurd hphase hsink
  · refine ⟨?_, hdone, hpeak, hlast⟩
    cases h with
    | accepted hphase => exact absurd hphase hsink
    | _ => rfl

theorem Effect.keeps_rstIn (h : Effect s i t) : t.env.rstIn = s.env.rstIn := by
  cases h <;> rfl

end operation

/-! ### Every step keeps it -/

theorem Env.mem_rstIn_of_taken {e : Env} {p : Port} {l : BitVec 1} (h : l ∈ (e.taken p).rstIn) : l ∈ e.rstIn := by
  cases p with
  | rst => exact List.mem_of_mem_tail h
  | _ => exact h

/-- A reset input that is never asserted offers no operation (`30_encoding.md` R76). -/
theorem ne_rst_of_reset_low {e : Env} {p : Port} {o : Offer} {i : Instr} (hlow : ∀ l ∈ e.rstIn, l = 0)
    (hoffer : e.offered p = some o) (hdecode : decode o = .operation i) : i ≠ .rst := by
  rintro rfl
  obtain rfl : Port.rst = p := (decode_port hdecode).trans (offered_port hoffer)
  obtain ⟨l, hl, rfl⟩ := Option.map_eq_some_iff.1 hoffer
  obtain rfl := hlow l (List.mem_of_head? hl)
  cases hdecode

namespace State.ShutDown

variable {s : State}

theorem turn (hs : s.ShutDown) (later : List Port) : (s.turn later).ShutDown := ⟨hs.block, hs.reset_low⟩

theorem take (hs : s.ShutDown) (p : Port) : (s.take p).ShutDown :=
  ⟨hs.block, fun l hl => hs.reset_low l (Env.mem_rstIn_of_taken hl)⟩

end State.ShutDown

theorem State.takeIfReady_cases (s : State) (p : Port) : s.takeIfReady p = s.take p ∨ s.takeIfReady p = s :=
  ite_eq_or_eq _ _ _

/-- The machine as its operation finds it, with the turn begun and the word taken where its port is ready. -/
theorem State.ShutDown.offered {s : State} (hs : s.ShutDown) (p : Port) (later : List Port) :
    ((s.turn later).takeIfReady p).ShutDown ∧ s.SentNothing ((s.turn later).takeIfReady p) := by
  obtain h | h := (s.turn later).takeIfReady_cases p <;> rw [h]
  · exact ⟨(hs.turn later).take p, (SentNothing.turn s later).trans (.take _ p)⟩
  · exact ⟨hs.turn later, .turn s later⟩

theorem run_succ {s u : State} (h : step s = .next u) (k : Nat) :
    Host.Core.run Sys2Proof.core (k + 1) s = Host.Core.run Sys2Proof.core k u := by
  simp only [Host.Core.run, Sys2Proof.core, h]

/-- A step of a shut-down machine is no reset, and every other one sends nothing. -/
theorem State.ShutDown.step_sends_nothing {s : State} (hs : s.ShutDown) :
    ∃ t, step s = .next t ∧ t.ShutDown ∧ s.SentNothing t := by
  obtain ⟨-, e⟩ | ⟨p, later, -, ⟨-, e⟩ | ⟨_, _, -, -, e⟩ | ⟨o, i, hoffer, hdecode, -, e⟩⟩ := step_cases s
  · exact ⟨s, e, hs, .refl s⟩
  · exact ⟨_, e, hs.turn later, .turn s later⟩
  · exact ⟨_, e, (hs.turn later).take p, (SentNothing.turn s later).trans (.take _ p)⟩
  · have hrst : i ≠ .rst := ne_rst_of_reset_low hs.reset_low hoffer hdecode
    obtain ⟨hu, hsent⟩ := hs.offered p later
    obtain ⟨t, ht, heffect⟩ := exec_effect i ((s.turn later).takeIfReady p)
    exact ⟨t, e.trans ht, ⟨heffect.keeps_shutDown hrst hu.block, heffect.keeps_rstIn ▸ hu.reset_low⟩,
      hsent.trans (heffect.sentNothing hrst hu.block.not_sink)⟩

theorem State.ShutDown.run_sends_nothing {s : State} (hs : s.ShutDown) (k : Nat) :
    ∃ t : State, Host.Core.run Sys2Proof.core k s = .next t ∧ t.ShutDown ∧ s.SentNothing t := by
  induction k generalizing s with
  | zero => exact ⟨s, rfl, hs, .refl s⟩
  | succ k ih =>
    obtain ⟨u, hu, hudown, husent⟩ := hs.step_sends_nothing
    obtain ⟨t, ht, htdown, htsent⟩ := ih hudown
    exact ⟨t, (run_succ hu k).trans ht, htdown, husent.trans htsent⟩

/-- Settles O49: `IDLE` with `CANCEL` set is shut down, and every step keeps that and sends nothing. -/
theorem nothingIsSentAfterShutdown : Obligations.NothingIsSentAfterShutdown := by
  intro s k hcancel hidle hlow
  have hs : s.ShutDown := ⟨⟨hcancel, by simp [hidle], by simp [hidle]⟩, hlow⟩
  obtain ⟨t, ht, hdown, hsent⟩ := hs.run_sends_nothing k
  exact ⟨t, ht, hdown.block.cancel, hdown.block.not_sink, hsent.sinkGot, hsent.doneCnt, hsent.peak, hsent.lastAcc⟩

end Sys2Proof.Machine

/-! The encoding (`30_encoding.md` R79). The decoder splits a request at its register number; the three reserved rows
are the register numbers from 8, 16 and 32 on, and a named register's address is its number and the ignored bits. -/

namespace Sys2Proof

/-! ### The reserved ranges by register number -/

section reserved

variable {off : Byte} (d : Word)

/-- The register number of an address (`30_encoding.md` R75). -/
theorem register_toNat (off : Byte) : (off.extractLsb' 2 6).toNat = off.toNat / 4 := by
  have := off.isLt
  rw [BitVec.extractLsb'_toNat, Nat.shiftRight_eq_div_pow]
  omega

theorem inRsvd20_iff :
    inRsvd20 off = true ↔ 8 ≤ (off.extractLsb' 2 6).toNat ∧ (off.extractLsb' 2 6).toNat < 16 := by
  simp only [inRsvd20, Bool.and_eq_true, decide_eq_true_eq, BitVec.le_def, BitVec.toNat_ofNat, register_toNat]
  omega

theorem inRsvd40_iff :
    inRsvd40 off = true ↔ 16 ≤ (off.extractLsb' 2 6).toNat ∧ (off.extractLsb' 2 6).toNat < 32 := by
  simp only [inRsvd40, Bool.and_eq_true, decide_eq_true_eq, BitVec.le_def, BitVec.toNat_ofNat, register_toNat]
  omega

theorem inRsvd80_iff : inRsvd80 off = true ↔ 32 ≤ (off.extractLsb' 2 6).toNat := by
  simp only [inRsvd80, decide_eq_true_eq, BitVec.le_def, BitVec.toNat_ofNat, register_toNat]
  omega

/-- An unnamed register's address lies in one of the three ranges. -/
theorem inRsvd20_of_not_above (h : 8 ≤ (off.extractLsb' 2 6).toNat) (h80 : ¬inRsvd80 off = true)
    (h40 : ¬inRsvd40 off = true) : inRsvd20 off = true := by
  rw [inRsvd80_iff] at h80
  rw [inRsvd40_iff] at h40
  exact inRsvd20_iff.2 (by omega)

theorem decodeRead_of_unnamed (h : 8 ≤ (off.extractLsb' 2 6).toNat) :
    decodeRead off d =
      if inRsvd80 off then .ctlRdRsvd80 off d else if inRsvd40 off then .ctlRdRsvd40 off d else .ctlRdRsvd20 off d := by
  unfold decodeRead
  split
  case h_9 => rfl
  all_goals omega

theorem decodeWrite_of_unnamed (h : 8 ≤ (off.extractLsb' 2 6).toNat) :
    decodeWrite off d =
      if inRsvd80 off then .ctlWrRsvd80 off d else if inRsvd40 off then .ctlWrRsvd40 off d else .ctlWrRsvd20 off d := by
  unfold decodeWrite
  split
  case h_9 => rfl
  all_goals omega

theorem decode_of_inRsvd20 (h : inRsvd20 off = true) :
    decodeRead off d = .ctlRdRsvd20 off d ∧ decodeWrite off d = .ctlWrRsvd20 off d := by
  obtain ⟨hlow, hhigh⟩ := inRsvd20_iff.1 h
  have h80 : ¬inRsvd80 off = true := by rw [inRsvd80_iff]; omega
  have h40 : ¬inRsvd40 off = true := by rw [inRsvd40_iff]; omega
  rw [decodeRead_of_unnamed d hlow, decodeWrite_of_unnamed d hlow]
  simp [h80, h40]

theorem decode_of_inRsvd40 (h : inRsvd40 off = true) :
    decodeRead off d = .ctlRdRsvd40 off d ∧ decodeWrite off d = .ctlWrRsvd40 off d := by
  obtain ⟨hlow, hhigh⟩ := inRsvd40_iff.1 h
  have h80 : ¬inRsvd80 off = true := by rw [inRsvd80_iff]; omega
  rw [decodeRead_of_unnamed d (by omega), decodeWrite_of_unnamed d (by omega)]
  simp [h80, h]

theorem decode_of_inRsvd80 (h : inRsvd80 off = true) :
    decodeRead off d = .ctlRdRsvd80 off d ∧ decodeWrite off d = .ctlWrRsvd80 off d := by
  have hlow := inRsvd80_iff.1 h
  rw [decodeRead_of_unnamed d (by omega), decodeWrite_of_unnamed d (by omega)]
  simp [h]

end reserved

/-! ### Decoding what the encoder answers -/

theorem decode_request_read (off : Byte) (d : Word) :
    decode (.ctl (request 0 off d)) = .operation (decodeRead off d) :=
  congrArg Decoded.operation (decodeCtl_read off d)

theorem decode_request_write (off : Byte) (d : Word) :
    decode (.ctl (request 1 off d)) = .operation (decodeWrite off d) :=
  congrArg Decoded.operation (decodeCtl_write off d)

theorem decode_encodeRead (reg : BitVec 6) (a : BitVec 2) (d : Word) :
    decode (encodeRead reg a d) = .operation (decodeRead (namedOffset reg a) d) := decode_request_read _ d

theorem decode_encodeWrite (reg : BitVec 6) (a : BitVec 2) (d : Word) :
    decode (encodeWrite reg a d) = .operation (decodeWrite (namedOffset reg a) d) := decode_request_write _ d

/-- `LAST` and `DATA` of a beat, read back from the word (`30_encoding.md` R71). -/
theorem decodeIq_append (last : BitVec 1) (v : Byte) :
    decodeIq (last ++ v) = if last.getLsbD 0 then .iqBeatLast v else .iqBeat v := by
  have hlast : (last ++ v).getLsbD 8 = last.getLsbD 0 := by rw [BitVec.getLsbD_append]; rfl
  have hdata : (last ++ v).extractLsb' 0 8 = v := BitVec.extractLsb'_append_eq_right
  rw [decodeIq, hlast, hdata]

/-- Settles O1: a named register's number selects its row, a reserved operation's range selects its own. -/
theorem wellFormedOperationsDecodeBack : Obligations.WellFormedOperationsDecodeBack := by
  intro i hi
  cases i with
  | ctlRdRsvd20 off d => rw [encode, decode_request_read, (decode_of_inRsvd20 d hi).1]
  | ctlWrRsvd20 off d => rw [encode, decode_request_write, (decode_of_inRsvd20 d hi).2]
  | ctlRdRsvd40 off d => rw [encode, decode_request_read, (decode_of_inRsvd40 d hi).1]
  | ctlWrRsvd40 off d => rw [encode, decode_request_write, (decode_of_inRsvd40 d hi).2]
  | ctlRdRsvd80 off d => rw [encode, decode_request_read, (decode_of_inRsvd80 d hi).1]
  | ctlWrRsvd80 off d => rw [encode, decode_request_write, (decode_of_inRsvd80 d hi).2]
  | iqBeat v => exact congrArg Decoded.operation (decodeIq_append 0 v)
  | iqBeatLast v => exact congrArg Decoded.operation (decodeIq_append 1 v)
  | snkError acc => revert acc; decide
  | snkAccept | rst => rfl
  | _ =>
    simp only [encode, decode_encodeRead, decode_encodeWrite, decodeRead, decodeWrite, namedOffset_register,
      namedOffset_ignored]
    rfl

/-! ### Encoding what the decoder answers -/

/-- An address whose register number is that of `reg` is an address of `reg`. -/
theorem namedOffset_of_register {off : Byte} {reg : BitVec 6} (h : (off.extractLsb' 2 6).toNat = reg.toNat) :
    namedOffset reg (off.extractLsb' 0 2) = off := by
  rw [← BitVec.eq_of_toNat_eq h, namedOffset_fields]

/-- The operation `i` is well formed and `o` is its encoding (`30_encoding.md` R79). -/
structure Instr.EncodedAs (i : Instr) (o : Offer) : Prop where
  wellFormed : i.wellFormed = true
  encode_eq : encode i = o

theorem decodeRead_encodedAs (off : Byte) (d : Word) : (decodeRead off d).EncodedAs (.ctl (request 0 off d)) := by
  unfold decodeRead
  split
  case h_9 =>
    have hunnamed : 8 ≤ (off.extractLsb' 2 6).toNat := by simp only [imp_false] at *; omega
    split_ifs with h80 h40
    · exact ⟨h80, rfl⟩
    · exact ⟨h40, rfl⟩
    · exact ⟨inRsvd20_of_not_above hunnamed h80 h40, rfl⟩
  all_goals
    rename_i hreg
    exact ⟨rfl, congrArg (fun a => Offer.ctl (request 0 a d)) (namedOffset_of_register hreg)⟩

theorem decodeWrite_encodedAs (off : Byte) (d : Word) : (decodeWrite off d).EncodedAs (.ctl (request 1 off d)) := by
  unfold decodeWrite
  split
  case h_9 =>
    have hunnamed : 8 ≤ (off.extractLsb' 2 6).toNat := by simp only [imp_false] at *; omega
    split_ifs with h80 h40
    · exact ⟨h80, rfl⟩
    · exact ⟨h40, rfl⟩
    · exact ⟨inRsvd20_of_not_above hunnamed h80 h40, rfl⟩
  all_goals
    rename_i hreg
    exact ⟨rfl, congrArg (fun a => Offer.ctl (request 1 a d)) (namedOffset_of_register hreg)⟩

theorem decodeCtl_encodedAs (r : BitVec 41) : (decodeCtl r).EncodedAs (.ctl r) := by
  rw [← request_fields r]
  obtain h | h := BitVec.eq_zero_or_eq_one (r.extractLsb' 40 1) <;> rw [h]
  · rw [show (0#1) = 0 from rfl, decodeCtl_read]; exact decodeRead_encodedAs _ _
  · rw [show (1#1) = 1 from rfl, decodeCtl_write]; exact decodeWrite_encodedAs _ _

/-- A beat is its two fields (`30_encoding.md` R70). -/
theorem beat_fields (b : BitVec 9) : b.extractLsb' 8 1 ++ b.extractLsb' 0 8 = b := by
  rw [BitVec.extractLsb'_append_extractLsb'_eq_extractLsb' (by rfl), BitVec.extractLsb'_eq_self]

theorem decodeIq_encodedAs (b : BitVec 9) : (decodeIq b).EncodedAs (.iq b) := by
  rw [← beat_fields b, decodeIq_append]
  obtain h | h := BitVec.eq_zero_or_eq_one (b.extractLsb' 8 1) <;> rw [h] <;> exact ⟨rfl, rfl⟩

/-- The four values of the two response wires. -/
theorem response_cases (r : BitVec 2) : r = 0b00 ∨ r = 0b01 ∨ r = 0b10 ∨ r = 0b11 := by
  revert r
  decide

theorem decodeSnk_encodedAs {r : BitVec 2} {i : Instr} (h : decodeSnk r = .operation i) : i.EncodedAs (.snk r) := by
  obtain rfl | rfl | rfl | rfl := response_cases r <;> cases h <;> exact ⟨rfl, rfl⟩

theorem decodeRst_encodedAs {l : BitVec 1} {i : Instr} (h : decodeRst l = .operation i) : i.EncodedAs (.rst l) := by
  obtain rfl | rfl := BitVec.eq_zero_or_eq_one l <;> cases h
  exact ⟨rfl, rfl⟩

theorem decode_encodedAs {o : Offer} {i : Instr} (h : decode o = .operation i) : i.EncodedAs o := by
  cases o with
  | ctl r => cases h; exact decodeCtl_encodedAs r
  | iq b => cases h; exact decodeIq_encodedAs b
  | snk r => exact decodeSnk_encodedAs h
  | rst l => exact decodeRst_encodedAs h

/-- Settles O2, format by format. -/
theorem decodedWordsEncodeBack : Obligations.DecodedWordsEncodeBack :=
  fun _ _ h => ⟨(decode_encodedAs h).wellFormed, (decode_encodedAs h).encode_eq⟩

/-! ### The rows of the operation map -/

/-- Every well-formed operation has a row of its own name that covers its encoding. -/
theorem coveredByItsRow (i : Instr) : Laws.CoveredByItsRow.Statement i :=
  match i with
  | .ctlRdCtrl a d => Laws.CoveredByItsRow.ctlRdCtrl a d
  | .ctlWrCtrl a d => Laws.CoveredByItsRow.ctlWrCtrl a d
  | .ctlRdStatus a d => Laws.CoveredByItsRow.ctlRdStatus a d
  | .ctlWrStatus a d => Laws.CoveredByItsRow.ctlWrStatus a d
  | .ctlRdShutdown a d => Laws.CoveredByItsRow.ctlRdShutdown a d
  | .ctlWrShutdown a d => Laws.CoveredByItsRow.ctlWrShutdown a d
  | .ctlRdPeak a d => Laws.CoveredByItsRow.ctlRdPeak a d
  | .ctlWrPeak a d => Laws.CoveredByItsRow.ctlWrPeak a d
  | .ctlRdDoneCnt a d => Laws.CoveredByItsRow.ctlRdDoneCnt a d
  | .ctlWrDoneCnt a d => Laws.CoveredByItsRow.ctlWrDoneCnt a d
  | .ctlRdLastAcc a d => Laws.CoveredByItsRow.ctlRdLastAcc a d
  | .ctlWrLastAcc a d => Laws.CoveredByItsRow.ctlWrLastAcc a d
  | .ctlRdCfgRatio a d => Laws.CoveredByItsRow.ctlRdCfgRatio a d
  | .ctlWrCfgRatio a d => Laws.CoveredByItsRow.ctlWrCfgRatio a d
  | .ctlRdCfgFrames a d => Laws.CoveredByItsRow.ctlRdCfgFrames a d
  | .ctlWrCfgFrames a d => Laws.CoveredByItsRow.ctlWrCfgFrames a d
  | .ctlRdRsvd20 off d => Laws.CoveredByItsRow.ctlRdRsvd20 off d
  | .ctlRdRsvd40 off d => Laws.CoveredByItsRow.ctlRdRsvd40 off d
  | .ctlRdRsvd80 off d => Laws.CoveredByItsRow.ctlRdRsvd80 off d
  | .ctlWrRsvd20 off d => Laws.CoveredByItsRow.ctlWrRsvd20 off d
  | .ctlWrRsvd40 off d => Laws.CoveredByItsRow.ctlWrRsvd40 off d
  | .ctlWrRsvd80 off d => Laws.CoveredByItsRow.ctlWrRsvd80 off d
  | .iqBeat v => Laws.CoveredByItsRow.iqBeat v
  | .iqBeatLast v => Laws.CoveredByItsRow.iqBeatLast v
  | .snkAccept => Laws.CoveredByItsRow.snkAccept
  | .snkError acc => Laws.CoveredByItsRow.snkError acc
  | .rst => Laws.CoveredByItsRow.rst

theorem Row.covers_iff (r : Row) (o : Offer) :
    r.covers o = true ↔ r.port = o.port ∧ o.bits &&& r.mask = r.pattern := by
  simp only [Row.covers, Bool.and_eq_true, beq_iff_eq]

/-- Two rows of one port disagree in a bit that both their masks select, unless they are the same row. -/
theorem eq_of_patterns_agree : ∀ r ∈ operationMap, ∀ r' ∈ operationMap,
    r.port = r'.port → r.pattern &&& r'.mask = r'.pattern &&& r.mask → r' = r := by
  decide +kernel

/-- No overlap: one word is covered by one row at most (`30_encoding.md` R79). -/
theorem eq_of_covers {r r' : Row} {o : Offer} (hr : r ∈ operationMap) (hr' : r' ∈ operationMap)
    (h : r.covers o = true) (h' : r'.covers o = true) : r' = r := by
  obtain ⟨hport, hbits⟩ := (r.covers_iff o).1 h
  obtain ⟨hport', hbits'⟩ := (r'.covers_iff o).1 h'
  refine eq_of_patterns_agree r hr r' hr' (hport.trans hport'.symm) ?_
  rw [← hbits, ← hbits', BitVec.and_assoc, BitVec.and_assoc, BitVec.and_comm r.mask]

/-- The words that are no operation (`30_encoding.md` R81). -/
theorem eq_of_decode_noOperation {o : Offer} {why : NoOperation} (h : decode o = .noOperation why) :
    o = .snk 0b00 ∨ o = .rst 0 := by
  cases o with
  | ctl r => cases h
  | iq b => cases h
  | snk r =>
    obtain rfl | rfl | rfl | rfl := response_cases r <;> cases h
    exact .inl rfl
  | rst l =>
    obtain rfl | rfl := BitVec.eq_zero_or_eq_one l
    · exact .inr rfl
    · cases h

/-- Settles O3: the decoded operation's row covers the word, being the word's encoding, and rows do not overlap. -/
theorem operationMapHasOneRowPerWord : Obligations.OperationMapHasOneRowPerWord := by
  intro o
  cases hd : decode o with
  | operation i =>
    obtain ⟨hi, ho⟩ := decode_encodedAs hd
    obtain ⟨r, hr, hname, hcovers⟩ := coveredByItsRow i hi
    rw [ho] at hcovers
    exact ⟨r, hr, hname, ((r.covers_iff o).1 hcovers).1.trans (decode_port hd).symm, hcovers,
      fun r' hr' h' => eq_of_covers hr hr' hcovers h'⟩
  | noOperation why =>
    have ho := eq_of_decode_noOperation hd
    refine ⟨ho, ?_⟩
    obtain rfl | rfl := ho <;> decide

/-! ### Words written out, and the code of a byte -/

/-- Settles O4: each word is the encoding of its operation. -/
theorem writtenOutWordsDecode : Obligations.WrittenOutWordsDecode :=
  ⟨wellFormedOperationsDecodeBack (.iqBeat 0x7F) rfl,
    wellFormedOperationsDecodeBack (.iqBeatLast 0x80) rfl,
    wellFormedOperationsDecodeBack .snkAccept rfl,
    wellFormedOperationsDecodeBack (.snkError 0) rfl,
    wellFormedOperationsDecodeBack (.snkError 1) rfl,
    wellFormedOperationsDecodeBack .rst rfl,
    wellFormedOperationsDecodeBack (.ctlWrCtrl 0 4) rfl,
    wellFormedOperationsDecodeBack (.ctlRdStatus 1 0) rfl,
    wellFormedOperationsDecodeBack (.ctlWrShutdown 0 1) rfl,
    wellFormedOperationsDecodeBack (.ctlWrDoneCnt 0 5) rfl,
    wellFormedOperationsDecodeBack (.ctlRdRsvd20 0x3F 0) rfl,
    wellFormedOperationsDecodeBack (.ctlWrRsvd40 0x40 0xFFFFFFFF) rfl,
    wellFormedOperationsDecodeBack (.ctlRdRsvd80 0xFC 0) rfl⟩

/-- Settles O34: the amplitude is the code over 255, both being affine in the byte. -/
theorem sampleCodeIsTheOddOffsetCode : Obligations.SampleCodeIsTheOddOffsetCode := by
  refine fun v => ⟨sampleCode_odd v, sampleCode_abs_le v, ?_⟩
  rw [sampleCode]
  push_cast
  ring

/-! ### A placed word -/

theorem decodeTableWord_eq_some {nbits w : Nat} {i : Instr} (h : decodeTableWord nbits w = some i) :
    ∃ o, tableOffer nbits w = some o ∧ decode o = .operation i := by
  unfold decodeTableWord at h
  split at h
  · cases h
  · split at h <;> cases h
    exact ⟨_, ‹_›, ‹_›⟩

namespace Machine

/-- The state with the word `o` first on its port and that port's turn next. -/
def State.place (s : State) (o : Offer) : State :=
  { s with env := { s.env.offer o with turns := o.port :: s.env.turns } }

theorem withFetchWord_of_tableOffer {nbits w : Nat} {o : Offer} (h : tableOffer nbits w = some o) (s : State) :
    s.withFetchWord nbits w = s.place o := by
  rw [State.withFetchWord, h]
  rfl

theorem offered_place (s : State) (o : Offer) : (s.place o).env.offered o.port = some o := by
  cases o <;> rfl

/-- Once the placed word is taken with its turn, the state is the one it was placed in. -/
theorem turn_take_place (s : State) (o : Offer) : ((s.place o).turn s.env.turns).take o.port = s := by
  cases o <;> rfl

/-- Settles O9: the placed word is what its port offers next, and taking it leaves the state it was placed in. -/
theorem placedTableWordRunsNext : Obligations.PlacedTableWordRunsNext := by
  intro s nbits w i h hready
  obtain ⟨o, htable, hdecode⟩ := decodeTableWord_eq_some h
  rw [decode_port hdecode] at hready
  calc step (s.withFetchWord nbits w) = step (s.place o) := by rw [withFetchWord_of_tableOffer htable]
    _ = exec i (((s.place o).turn s.env.turns).take o.port) := step_of_ready rfl (offered_place s o) hdecode hready
    _ = exec i s := by rw [turn_take_place]

end Machine

end Sys2Proof

/-! One beat of an invocation (`40_invocation.md` R101 to R104, R107): what it reads and what it writes. -/

namespace Sys2Proof.Machine

/-! ### The Engine's fields apart from the Host's -/

/-- The Engine's fields of `e` with the Host's fields of `h` (`10_state.md` R22 to R26) and the phase `ph`. -/
def Block.withControl (e h : Block) (ph : Phase) : Block :=
  { e with
    route := h.route
    clamp := h.clamp
    cancel := h.cancel
    lenErr := h.lenErr
    sinkErr := h.sinkErr
    phase := ph }

namespace Block

variable (p : Params) (e h : Block) (ph : Phase) (v : Byte)

theorem accumulate_withControl (m : Nat) :
    (e.withControl h ph).accumulate m v = (e.accumulate m v).withControl h ph := by
  unfold accumulate
  split <;> rfl

theorem useByte_withControl : (e.withControl h ph).useByte p v = (e.useByte p v).withControl h ph := by
  have hsums : (e.withControl h ph).accumulate (e.withControl h ph).n v = (e.accumulate e.n v).withControl h ph :=
    e.accumulate_withControl h ph v e.n
  obtain ⟨hend, he⟩ | ⟨hend, he⟩ := useByte_cases p e v <;> rw [he]
  · rw [useByte_of_endsFrame (b := e.withControl h ph) v hend, hsums]
    rfl
  · rw [useByte_of_not_endsFrame (b := e.withControl h ph) v hend, hsums]
    rfl

/-- A beat reads and writes neither the Host's fields nor the phase. -/
theorem dataBeat_withControl : (e.withControl h ph).dataBeat p v = (e.dataBeat p v).withControl h ph := by
  obtain ⟨hc, he⟩ | ⟨hc, hn, he⟩ | ⟨hc, hn, he⟩ := dataBeat_cases p e v <;> rw [he]
  · exact dataBeat_of_cancelled v hc
  · rw [dataBeat_of_lt (b := e.withControl h ph) v hc hn, useByte_withControl]
  · exact dataBeat_of_ge v hc hn

theorem dataBeat_withPhase : ({ e with phase := ph } : Block).dataBeat p v = { e.dataBeat p v with phase := ph } := by
  have hkept : (e.dataBeat p v).withControl e ph = { e.dataBeat p v with phase := ph } := by simp [withControl]
  exact (dataBeat_withControl p e e ph v).trans hkept

end Block

/-! ### One beat -/

/-- Settles O25. -/
theorem streamOperationsWaitForTheirPhase : Obligations.StreamOperationsWaitForTheirPhase :=
  fun _ _ _ => ⟨fun h => ⟨exec_iq_of_sink rfl h, exec_iq_of_sink rfl h⟩,
    fun h => ⟨exec_snk_of_not_sink rfl h, exec_snk_of_not_sink rfl h⟩⟩

/-- Settles O24: both operations use the byte alike, and the decision does not read the phase that `IQ_BEAT` has
written. -/
theorem lastBeatDecidesTheBuffer : Obligations.LastBeatDecidesTheBuffer :=
  fun v _ hsink => ⟨_, exec_iqBeat_of_not_sink v hsink, exec_iqBeatLast_of_not_sink v hsink⟩

/-- Settles O20: started or not, the beat uses its byte in the same invocation, and the phase it finds is not read. -/
theorem firstBeatStartsTheInvocation : Obligations.FirstBeatStartsTheInvocation := by
  intro v s hidle started
  have hsink : s.block.phase ≠ .sink := by simp [hidle]
  have hbeat : started.block.startIfIdle.dataBeat started.cfg v =
      { s.block.startIfIdle.dataBeat s.cfg v with phase := .collect } := by
    rw [Block.startIfIdle_of_idle hidle]
    exact Block.dataBeat_withPhase s.cfg s.block.startInvocation .collect v
  refine ⟨⟨_, exec_iqBeat_of_not_sink v hsink, ?_⟩, ⟨_, exec_iqBeatLast_of_not_sink v hsink, ?_⟩⟩
  · rw [exec_iqBeat_of_not_sink v (by simp [started]), hbeat]
    rfl
  · rw [exec_iqBeatLast_of_not_sink v (by simp [started]), hbeat]
    rfl

namespace Block

/-- A beat writes no frame, or the one its byte's position ends (`41_decimation.md` R123). -/
theorem dataBeat_outbuf_cases (p : Params) (b : Block) (v : Byte) :
    (b.dataBeat p v).outbuf = b.outbuf ∨
      (b.invCancel = false ∧ b.n < p.rawLen ∧ p.endsFrame b.n = true ∧
        ∃ f, (b.dataBeat p v).outbuf = b.outbuf.set (b.n / p.frameLen) f) := by
  obtain ⟨-, h⟩ | ⟨hc, hn, h⟩ | ⟨-, -, h⟩ := dataBeat_cases p b v
  · exact .inl (by rw [h])
  · obtain ⟨hend, hu⟩ | ⟨-, hu⟩ := useByte_cases p b v
    · exact .inr ⟨hc, hn, hend, _, by rw [h, hu, completeFrame_outbuf, accumulate_outbuf]⟩
    · exact .inl (by rw [h, hu, accumulate_outbuf])
  · exact .inl (by rw [h])

theorem dataBeat_outbuf_getElem? {p : Params} {b : Block} (v : Byte) {j : Nat} (hj : j ≠ b.n / p.frameLen) :
    (b.dataBeat p v).outbuf[j]? = b.outbuf[j]? := by
  obtain h | ⟨-, -, -, f, h⟩ := dataBeat_outbuf_cases p b v <;> rw [h]
  rw [List.getElem?_set_ne hj.symm]

theorem dataBeat_outbuf_of_no_frame {p : Params} {b : Block} (v : Byte)
    (hno : b.invCancel = true ∨ p.rawLen ≤ b.n ∨ p.endsFrame b.n = false) : (b.dataBeat p v).outbuf = b.outbuf := by
  obtain h | ⟨hc, hn, hend, -⟩ := dataBeat_outbuf_cases p b v
  · exact h
  · simp [hc, hend, hn.not_ge] at hno

end Block

/-- Settles O26: in `SINK` nothing changes, and elsewhere both beats leave the `OUTBUF` of the byte's use. -/
theorem beatsStoreOnlyTheFrameTheyComplete : Obligations.BeatsStoreOnlyTheFrameTheyComplete := by
  intro v i s t hi h
  by_cases hsink : s.block.phase = .sink
  · have hport : i.port = .iq := by obtain rfl | rfl := hi <;> rfl
    rw [exec_iq_of_sink hport hsink] at h
    cases h
    simp
  · have hother (j : Nat) (hj : j ≠ s.block.startIfIdle.n / s.cfg.frameLen) :=
      (Block.dataBeat_outbuf_getElem? v hj).trans (congrArg (·[j]?) s.block.startIfIdle_outbuf)
    have hnone (hno : s.block.startIfIdle.invCancel = true ∨ s.cfg.rawLen ≤ s.block.startIfIdle.n ∨
        s.cfg.endsFrame s.block.startIfIdle.n = false) :=
      (Block.dataBeat_outbuf_of_no_frame v hno).trans s.block.startIfIdle_outbuf
    obtain rfl | rfl := hi
    · rw [exec_iqBeat_of_not_sink v hsink] at h
      cases h
      simpa using ⟨hother, hnone⟩
    · rw [exec_iqBeatLast_of_not_sink v hsink] at h
      cases h
      simpa using ⟨hother, hnone⟩

end Sys2Proof.Machine

/-! Whole buffers (`40_invocation.md` R103 to R108). The Host's requests between the beats reach only its own fields, so
a buffer leaves what its bytes make of the invocation, decided by its last beat, with the Host's fields beside it. -/

namespace Sys2Proof.Machine

/-! ### The Host's requests among the beats -/

/-- What a control request does to the block: only three registers can be written (`44_control.md` R190). -/
def Block.serve (b : Block) : Instr → Block
  | .ctlWrCtrl _ d => b.writeCtrl d
  | .ctlWrStatus _ d => b.writeStatus d
  | .ctlWrShutdown _ d => b.writeShutdown d
  | _ => b

theorem Block.serve_withControl (e h : Block) (ph : Phase) (i : Instr) :
    (e.withControl h ph).serve i = e.withControl (h.serve i) ph := by
  cases i <;> rfl

/-- A control request completes, and what it does beside serving the block is at most an answer to the Host. -/
theorem exec_ctl {i : Instr} (hport : i.port = .ctl) (s : State) :
    ∃ got, exec i s = .next { s with block := s.block.serve i, env := { s.env with hostGot := got } } := by
  cases i with
  | ctlRdCtrl | ctlRdStatus | ctlRdShutdown | ctlRdPeak | ctlRdDoneCnt | ctlRdLastAcc | ctlRdCfgRatio
  | ctlRdCfgFrames | ctlRdRsvd20 | ctlRdRsvd40 | ctlRdRsvd80 => exact ⟨s.env.hostGot ++ [_], rfl⟩
  | ctlWrCtrl | ctlWrStatus | ctlWrShutdown | ctlWrPeak | ctlWrDoneCnt | ctlWrLastAcc | ctlWrCfgRatio
  | ctlWrCfgFrames | ctlWrRsvd20 | ctlWrRsvd40 | ctlWrRsvd80 => exact ⟨s.env.hostGot, rfl⟩
  | iqBeat | iqBeatLast | snkAccept | snkError | rst => cases hport

theorem hostOps_cons_of_ctl {i : Instr} (hport : i.port = .ctl) (later : List Instr) :
    hostOps (i :: later) = i :: hostOps later :=
  List.filter_cons_of_pos (by simp [hport])

theorem hostOps_cons_of_not_ctl {i : Instr} (hport : i.port ≠ .ctl) (later : List Instr) :
    hostOps (i :: later) = hostOps later :=
  List.filter_cons_of_neg (by simpa using hport)

/-- A beat uses its byte in the Engine's fields and leaves the Host's as they are. -/
theorem exec_iqBeat_withControl {s : State} {e h : Block} {ph : Phase} (v : Byte) (hsink : s.block.phase ≠ .sink)
    (hstart : s.block.startIfIdle = e.withControl h ph) :
    exec (.iqBeat v) s = .next (s.withBlock ((e.dataBeat s.cfg v).withControl h .collect)) := by
  rw [exec_iqBeat_of_not_sink v hsink, hstart, Block.dataBeat_withControl]
  rfl

theorem exec_iqBeatLast_withControl {s : State} {e h : Block} {ph : Phase} (v : Byte) (hsink : s.block.phase ≠ .sink)
    (hstart : s.block.startIfIdle = e.withControl h ph) :
    exec (.iqBeatLast v) s =
      .next (s.withBlock (((e.dataBeat s.cfg v).withControl h .collect).endBuffer s.cfg)) := by
  rw [exec_iqBeatLast_of_not_sink v hsink, hstart, Block.dataBeat_withControl]
  rfl

/-- Within a buffer a beat finds the invocation as it is. -/
theorem startIfIdle_of_collecting {b e h : Block} (hb : b = e.withControl h .collect) :
    b.startIfIdle = e.withControl h .collect := by
  rw [hb]
  rfl

/-- Between the first beat and the last, the bytes reach the Engine's fields alone and the Host's requests its own
fields alone; `h` is where those requests alone have led. -/
theorem runOps_collecting {ops : List Instr} (hops : WithinBuffer ops) {s h : State} {e : Block}
    (hblock : s.block = e.withControl h.block .collect) :
    ∃ t h', runOps ops s = .next t ∧ runOps (hostOps ops) h = .next h' ∧ t.cfg = s.cfg ∧
      t.env.sinkGot = s.env.sinkGot ∧
      t.block = ((ops.filterMap beatByte).foldl (Block.dataBeat s.cfg) e).withControl h'.block .collect := by
  induction ops generalizing s h e with
  | nil => exact ⟨s, h, rfl, rfl, rfl, rfl, hblock⟩
  | cons i later ih =>
    obtain ⟨hport | ⟨v, rfl⟩, hlater⟩ := List.forall_mem_cons.1 hops
    · obtain ⟨got, hs⟩ := exec_ctl hport s
      obtain ⟨got', hh⟩ := exec_ctl hport h
      rw [runOps_cons hs, hostOps_cons_of_ctl hport, runOps_cons hh, List.filterMap_cons_none (beatByte_of_ctl hport)]
      exact ih hlater (by rw [hblock, Block.serve_withControl])
    · have hbeat := exec_iqBeat_withControl v (by rw [hblock]; nofun) (startIfIdle_of_collecting hblock)
      rw [runOps_cons hbeat, hostOps_cons_of_not_ctl (by simp [Instr.port]),
        List.filterMap_cons_some (f := beatByte) rfl, List.foldl_cons]
      exact ih hlater rfl

/-- A buffer leaves its invocation as its bytes alone make it, with the Host's fields as its requests alone make them,
decided by its last beat. -/
theorem runOps_bringsBuffer {bytes : List Byte} {ops : List Instr} (hbuffer : BringsBuffer bytes ops) {s : State}
    (hidle : s.block.phase = .idle) :
    ∃ t h, runOps ops s = .next t ∧ runOps (hostOps ops) s = .next h ∧ t.cfg = s.cfg ∧
      t.env.sinkGot = s.env.sinkGot ∧
      t.block = ((bytes.foldl (Block.dataBeat s.cfg) s.block.startInvocation).withControl h.block .collect).endBuffer
        s.cfg := by
  have hsink : s.block.phase ≠ .sink := by simp [hidle]
  have hstart : s.block.startIfIdle = s.block.startInvocation.withControl s.block s.block.phase :=
    Block.startIfIdle_of_idle hidle
  cases hbuffer with
  | single v => exact ⟨_, s, runOps_cons (exec_iqBeatLast_withControl v hsink hstart), rfl, rfl, rfl, rfl⟩
  | several first last between hbetween =>
    obtain ⟨u, h, hu, hh, hucfg, hugot, hublock⟩ := runOps_collecting hbetween
      (s := s.withBlock ((s.block.startInvocation.dataBeat s.cfg first).withControl s.block .collect)) (h := s) rfl
    have hlast := exec_iqBeatLast_withControl last (by rw [hublock]; nofun) (startIfIdle_of_collecting hublock)
    refine ⟨_, h, (runOps_cons (exec_iqBeat_withControl first hsink hstart)).trans
      ((runOps_append hu).trans (runOps_cons hlast)), ?_, hucfg, hugot, ?_⟩
    · simpa [hostOps, Instr.port] using hh
    · rw [State.withBlock_block, hucfg]
      simp

/-! ### What the bytes of a buffer make of an invocation -/

namespace Block

/-- What every beat keeps, all the beats of a buffer keep. -/
theorem foldl_dataBeat_keeps {α : Type} {p : Params} (f : Block → α) (hf : ∀ b v, f (b.dataBeat p v) = f b)
    (bytes : List Byte) (b : Block) : f (bytes.foldl (dataBeat p) b) = f b := by
  induction bytes generalizing b with
  | nil => rfl
  | cons v later ih => rw [List.foldl_cons, ih, hf]

section foldl

variable (p : Params) (bytes : List Byte) (b : Block)

@[simp] theorem foldl_dataBeat_invCancel : (bytes.foldl (dataBeat p) b).invCancel = b.invCancel :=
  foldl_dataBeat_keeps (·.invCancel) (dataBeat_invCancel · p) bytes b
@[simp] theorem foldl_dataBeat_w : (bytes.foldl (dataBeat p) b).w = b.w :=
  foldl_dataBeat_keeps (·.w) (dataBeat_w · p) bytes b
@[simp] theorem foldl_dataBeat_peak : (bytes.foldl (dataBeat p) b).peak = b.peak :=
  foldl_dataBeat_keeps (·.peak) (dataBeat_peak · p) bytes b
@[simp] theorem foldl_dataBeat_doneCnt : (bytes.foldl (dataBeat p) b).doneCnt = b.doneCnt :=
  foldl_dataBeat_keeps (·.doneCnt) (dataBeat_doneCnt · p) bytes b
@[simp] theorem foldl_dataBeat_lastAcc : (bytes.foldl (dataBeat p) b).lastAcc = b.lastAcc :=
  foldl_dataBeat_keeps (·.lastAcc) (dataBeat_lastAcc · p) bytes b

end foldl

/-- The bytes of a cancelled buffer are discarded (`40_invocation.md` R103). -/
theorem foldl_dataBeat_of_cancelled {b : Block} (hc : b.invCancel = true) (p : Params) (bytes : List Byte) :
    bytes.foldl (dataBeat p) b = b := by
  induction bytes with
  | nil => rfl
  | cons v later ih => rw [List.foldl_cons, dataBeat_of_cancelled v hc, ih]

/-- The count stops at `RAWLEN`, and `over` records whether there was a byte beyond it (`10_state.md` R32). -/
theorem foldl_dataBeat_count {p : Params} (bytes : List Byte) {b : Block} (hc : b.invCancel = false)
    (hn : b.n ≤ p.rawLen) :
    (bytes.foldl (dataBeat p) b).n = min (b.n + bytes.length) p.rawLen ∧
      (bytes.foldl (dataBeat p) b).overLen = (b.overLen || decide (p.rawLen < b.n + bytes.length)) := by
  induction bytes generalizing b with
  | nil => simp [hn, hn.not_gt]
  | cons v later ih =>
    have hstep : (b.dataBeat p v).n ≤ p.rawLen := by rw [dataBeat_n]; split <;> omega
    obtain ⟨hcount, hover⟩ := ih (by rw [dataBeat_invCancel, hc]) hstep
    rw [List.foldl_cons, hcount, hover, dataBeat_n, dataBeat_overLen, List.length_cons]
    obtain hlt | hfull := hn.lt_or_eq
    · simp only [hc, hlt, hlt.not_ge, and_self, and_false, if_true, if_false, Nat.add_assoc, Nat.add_comm 1]
    · simp [hc, hfull]

/-- A buffer that is not cancelled is found to be of the wrong length exactly where it is. -/
theorem foldl_dataBeat_wrong_iff (p : Params) (bytes : List Byte) {b : Block} (hc : b.invCancel = false)
    (hn : b.n = 0) (hover : b.overLen = false) :
    ((bytes.foldl (dataBeat p) b).overLen = true ∨ (bytes.foldl (dataBeat p) b).n ≠ p.rawLen) ↔
      bytes.length ≠ p.rawLen := by
  obtain ⟨hcount, hbeyond⟩ := foldl_dataBeat_count bytes hc (p := p) (by omega)
  rw [hcount, hbeyond, hn, hover, Bool.false_or, decide_eq_true_iff]
  omega

theorem endBuffer_of_cancelled {b : Block} (hc : b.invCancel = true) (p : Params) :
    b.endBuffer p = { b with phase := .idle } := if_pos hc

theorem endBuffer_of_wrong {p : Params} {b : Block} (hc : b.invCancel = false)
    (hwrong : b.overLen = true ∨ b.n ≠ p.rawLen) : b.endBuffer p = { b with lenErr := true, phase := .idle } := by
  rw [endBuffer, if_neg (by simp [hc]), if_pos hwrong]
  rfl

theorem endBuffer_of_valid {p : Params} {b : Block} (hc : b.invCancel = false) (hover : b.overLen = false)
    (hn : b.n = p.rawLen) : b.endBuffer p = { b with w := 0, phase := .sink } := by
  rw [endBuffer, if_neg (by simp [hc]), if_neg (by simp [hover, hn])]

end Block

/-- Settles O45: the bytes leave the invocation as its first beat starts it, and the last beat only ends it. -/
theorem cancelledBufferIsANoOp : Obligations.CancelledBufferIsANoOp := by
  intro s bytes ops hidle hcancel hbuffer
  obtain ⟨t, h, ht, hh, hcfg, hgot, hblock⟩ := runOps_bringsBuffer hbuffer hidle
  rw [Block.foldl_dataBeat_of_cancelled hcancel,
    Block.endBuffer_of_cancelled (b := s.block.startInvocation.withControl h.block .collect) hcancel] at hblock
  refine ⟨t, h, ht, hh, ?_⟩
  rw [hblock]
  exact ⟨rfl, rfl, rfl, rfl, hgot, hcfg, rfl, rfl, rfl, rfl, rfl, rfl, rfl, rfl⟩

/-- Settles O44: the count and `over` tell the wrong length, and the last beat then only raises `LEN_ERR`. -/
theorem wrongLengthBufferIsIgnored : Obligations.WrongLengthBufferIsIgnored := by
  intro s bytes ops _ hidle hcancel hbuffer hlength
  obtain ⟨t, h, ht, hh, hcfg, hgot, hblock⟩ := runOps_bringsBuffer hbuffer hidle
  have hc : (bytes.foldl (Block.dataBeat s.cfg) s.block.startInvocation).invCancel = false := by simp [hcancel]
  have hwrong := (Block.foldl_dataBeat_wrong_iff s.cfg bytes (b := s.block.startInvocation) hcancel rfl rfl).2 hlength
  rw [Block.endBuffer_of_wrong (b := Block.withControl _ h.block .collect) hc hwrong] at hblock
  refine ⟨t, h, ht, hh, ?_⟩
  rw [hblock]
  exact ⟨rfl, rfl, Block.foldl_dataBeat_w .., hgot, hcfg, Block.foldl_dataBeat_peak ..,
    Block.foldl_dataBeat_doneCnt .., Block.foldl_dataBeat_lastAcc .., rfl, rfl, rfl, rfl⟩

end Sys2Proof.Machine

/-! A valid buffer (`40_invocation.md` R106). After `j` whole frames and `r` bytes of the next, the block is known field
by field: the sums are those of the next frame's samples so far, and the first `j` frames of `OUTBUF` are the buffer's. -/

namespace Sys2Proof

/-- The sum of the codes of the first `k` samples of frame `j` in one lane: 0 for I, 1 for Q
(`41_decimation.md` R121). -/
def laneSum (p : Params) (bytes : List Byte) (lane j k : Nat) : Int :=
  ((List.range k).map fun i => sampleCode (bytes.getD (2 * p.ratio * j + 2 * i + lane) 0)).sum

theorem laneSum_succ (p : Params) (bytes : List Byte) (lane j k : Nat) :
    laneSum p bytes lane j (k + 1) =
      laneSum p bytes lane j k + sampleCode (bytes.getD (2 * p.ratio * j + 2 * k + lane) 0) := by
  simp [laneSum, List.range_succ]

theorem sumI_eq_laneSum (p : Params) (bytes : List Byte) (j : Nat) : sumI p bytes j = laneSum p bytes 0 j p.ratio := rfl

theorem sumQ_eq_laneSum (p : Params) (bytes : List Byte) (j : Nat) : sumQ p bytes j = laneSum p bytes 1 j p.ratio := rfl

theorem bufferEnergy_eq (p : Params) (bytes : List Byte) (j : Nat) :
    bufferEnergy p bytes j = Machine.energy (sumI p bytes j) (sumQ p bytes j) := by
  rw [bufferEnergy, Machine.energy, sq, sq]

/-- Within its frame a byte's position is its offset. -/
theorem endsFrame_offset (p : Params) (j : Nat) {r : Nat} (hr : r < p.frameLen) :
    p.endsFrame (p.frameLen * j + r) = true ↔ r = p.frameLen - 1 := by
  rw [endsFrame_iff, Nat.mul_add_mod, Nat.mod_eq_of_lt hr]

theorem frame_of_offset (p : Params) (j : Nat) {r : Nat} (hr : r < p.frameLen) :
    (p.frameLen * j + r) / p.frameLen = j := by
  rw [Nat.mul_add_div (by omega), Nat.div_eq_of_lt hr, Nat.add_zero]

/-- Frames of a buffer in `OUTBUF`'s first places: storing the next one extends them. -/
theorem map_range_append_drop_set {α : Type} (f : Nat → α) (old : List α) {j : Nat} (hj : j < old.length) :
    ((List.range j).map f ++ old.drop j).set j (f j) = (List.range (j + 1)).map f ++ old.drop (j + 1) := by
  rw [List.set_append_right _ _ (by simp), List.length_map, List.length_range, Nat.sub_self,
    List.drop_eq_getElem_cons hj, List.set_cons_zero, List.range_succ, List.map_append, List.append_assoc]
  rfl

namespace Machine

/-- Frame `j` of a buffer under a routing mode and a clamp (`43_formatter.md` R161, R162). -/
def bufferFrame (p : Params) (bytes : List Byte) (route : Route) (clamp : Bool) (j : Nat) : Frame :=
  route.frame (sample p.scale (bufferEnergy p bytes j) clamp)

namespace Block

/-- The invocation `b` after `j` whole frames of a buffer and `r` bytes of the next. -/
def collected (p : Params) (bytes : List Byte) (b : Block) (j r : Nat) : Block :=
  { b with
    n := p.frameLen * j + r
    accI := laneSum p bytes 0 j ((r + 1) / 2)
    accQ := laneSum p bytes 1 j (r / 2)
    emax := (Finset.range j).sup (bufferEnergy p bytes)
    outbuf := (List.range j).map (bufferFrame p bytes b.invRoute b.invClamp) ++ b.outbuf.drop j }

section collected

variable {p : Params} {bytes : List Byte} {b : Block} {j r : Nat}

theorem startInvocation_eq_collected (p : Params) (bytes : List Byte) (b : Block) :
    b.startInvocation = b.startInvocation.collected p bytes 0 0 := rfl

/-- The next byte goes to the sum of its lane, which the parity of its offset tells (`41_decimation.md` R122). -/
theorem accumulate_collected (p : Params) (bytes : List Byte) (b : Block) (j r : Nat) :
    (b.collected p bytes j r).accumulate (p.frameLen * j + r) (bytes.getD (p.frameLen * j + r) 0) =
      { b.collected p bytes j r with
        accI := laneSum p bytes 0 j ((r + 2) / 2)
        accQ := laneSum p bytes 1 j ((r + 1) / 2) } := by
  have hparity : (p.frameLen * j + r) % 2 = r % 2 := by rw [Params.frameLen, Nat.mul_assoc, Nat.mul_add_mod]
  obtain ⟨k, rfl | rfl⟩ := Nat.even_or_odd' r
  · rw [accumulate, if_pos (by omega), show (2 * k + 2) / 2 = k + 1 by omega, show (2 * k + 1) / 2 = k by omega,
      laneSum_succ]
    simp [collected, Params.frameLen, show (2 * k + 1) / 2 = k by omega]
  · rw [accumulate, if_neg (by omega), show (2 * k + 1 + 2) / 2 = k + 1 by omega,
      show (2 * k + 1 + 1) / 2 = k + 1 by omega, laneSum_succ p bytes 1]
    simp [collected, Params.frameLen, Nat.add_assoc, show (2 * k + 1) / 2 = k by omega]

theorem useByte_collected (hr : r + 1 < p.frameLen) :
    (b.collected p bytes j r).useByte p (bytes.getD (p.frameLen * j + r) 0) = b.collected p bytes j (r + 1) := by
  have hend : p.endsFrame (b.collected p bytes j r).n = false := by
    rw [← Bool.not_eq_true]
    exact mt (endsFrame_offset p j (by omega)).1 (by omega)
  exact (useByte_of_not_endsFrame _ hend).trans
    (congrArg (fun c : Block => { c with n := p.frameLen * j + r + 1 }) (accumulate_collected p bytes b j r))

/-- The last byte of a frame completes it: its energy and its sample are the buffer's (`41_decimation.md` R123). -/
theorem useByte_collected_last (hr : r + 1 = p.frameLen) (hj : j < b.outbuf.length) :
    (b.collected p bytes j r).useByte p (bytes.getD (p.frameLen * j + r) 0) = b.collected p bytes (j + 1) 0 := by
  have hlen : p.frameLen = 2 * p.ratio := rfl
  have hend : p.endsFrame (b.collected p bytes j r).n = true := (endsFrame_offset p j (by omega)).2 (by omega)
  have hframe : (b.collected p bytes j r).n / p.frameLen = j := frame_of_offset p j (by omega)
  have hn : (b.collected p bytes j r).n = p.frameLen * j + r := rfl
  have hcount : p.frameLen * j + r + 1 = p.frameLen * (j + 1) + 0 := by rw [Nat.mul_succ, ← hr]; rfl
  have hsup : (Finset.range (j + 1)).sup (bufferEnergy p bytes) =
      max ((Finset.range j).sup (bufferEnergy p bytes)) (bufferEnergy p bytes j) := by
    rw [Finset.range_add_one, Finset.sup_insert, max_comm]
  rw [useByte_of_endsFrame _ hend, hframe, hn, accumulate_collected, show (r + 2) / 2 = p.ratio by omega,
    show (r + 1) / 2 = p.ratio by omega, ← sumI_eq_laneSum, ← sumQ_eq_laneSum, hcount]
  simp only [completeFrame, peakUpdate, ← bufferEnergy_eq]
  rw [collected, collected, hsup, ← map_range_append_drop_set _ _ hj]
  rfl

end collected

/-- The bytes of a buffer up to one of them, and that one. -/
theorem foldl_take_succ {bytes : List Byte} {m : Nat} (hm : m < bytes.length) (p : Params) (b : Block) :
    (bytes.take (m + 1)).foldl (dataBeat p) b =
      ((bytes.take m).foldl (dataBeat p) b).dataBeat p (bytes.getD m 0) := by
  rw [List.take_add_one, List.foldl_append, List.getElem?_eq_getElem hm, List.getD_eq_getElem _ _ hm]
  rfl

section valid

variable {p : Params} {bytes : List Byte} {b : Block} (hlegal : p.legal = true) (hlength : bytes.length = p.rawLen)
  (hc : b.invCancel = false) (houtbuf : b.outbuf.length = p.frames)

include hlength hc in
/-- In a buffer of the whole length every byte is used. -/
theorem foldl_take_succ_of_collected {j r : Nat} (hj : j < p.frames) (hr : r < p.frameLen)
    (hbefore : (bytes.take (p.frameLen * j + r)).foldl (dataBeat p) b = b.collected p bytes j r) :
    (bytes.take (p.frameLen * j + r + 1)).foldl (dataBeat p) b =
      (b.collected p bytes j r).useByte p (bytes.getD (p.frameLen * j + r) 0) := by
  have hm : p.frameLen * j + r < p.rawLen := by
    calc p.frameLen * j + r < p.frameLen * (j + 1) := by rw [Nat.mul_succ]; omega
      _ ≤ p.rawLen := by rw [rawLen_eq, Nat.mul_comm]; exact Nat.mul_le_mul_right _ hj
  rw [foldl_take_succ (hlength ▸ hm), hbefore, dataBeat_of_lt (b := b.collected p bytes j r) _ hc hm]

include hlength hc in
theorem foldl_take_inside_frame {j : Nat} (hj : j < p.frames)
    (hstart : (bytes.take (p.frameLen * j)).foldl (dataBeat p) b = b.collected p bytes j 0) {r : Nat}
    (hr : r < p.frameLen) :
    (bytes.take (p.frameLen * j + r)).foldl (dataBeat p) b = b.collected p bytes j r := by
  induction r with
  | zero => exact hstart
  | succ r ih =>
    rw [← Nat.add_assoc, foldl_take_succ_of_collected hlength hc hj (by omega) (ih (by omega)), useByte_collected hr]

include hlegal hlength hc houtbuf in
theorem foldl_take_frames (hzero : b = b.collected p bytes 0 0) {j : Nat} (hj : j ≤ p.frames) :
    (bytes.take (p.frameLen * j)).foldl (dataBeat p) b = b.collected p bytes j 0 := by
  induction j with
  | zero => exact hzero
  | succ j ih =>
    obtain ⟨r, hr⟩ : ∃ r, p.frameLen = r + 1 := Nat.exists_eq_add_of_le' (Nat.le_of_succ_le (legal_lengths hlegal).2)
    have hinside := foldl_take_inside_frame hlength hc hj (ih (by omega)) (r := r) (by omega)
    have hposition : p.frameLen * (j + 1) = p.frameLen * j + r + 1 := by rw [Nat.mul_succ, Nat.add_assoc, ← hr]
    rw [hposition, foldl_take_succ_of_collected hlength hc hj (by omega) hinside,
      useByte_collected_last hr.symm (houtbuf ▸ hj)]

include hlegal hlength hc houtbuf in
/-- A buffer of the whole length leaves all its frames collected. -/
theorem foldl_dataBeat_valid (hzero : b = b.collected p bytes 0 0) :
    bytes.foldl (dataBeat p) b = b.collected p bytes p.frames 0 := by
  have hall : bytes.take (p.frameLen * p.frames) = bytes := by
    rw [Nat.mul_comm, ← rawLen_eq, ← hlength, List.take_length]
  rw [← foldl_take_frames hlegal hlength hc houtbuf hzero le_rfl, hall]

end valid

end Block

/-- Settles O43: every frame of `OUTBUF` is the buffer's, and the last beat finds the buffer valid. -/
theorem validBufferFillsTheOutputBuffer : Obligations.ValidBufferFillsTheOutputBuffer := by
  intro s bytes ops hlegal houtbuf hidle hcancel hbuffer hlength
  obtain ⟨t, h, ht, hh, hcfg, hgot, hblock⟩ := runOps_bringsBuffer hbuffer hidle
  obtain ⟨-, hframes, -⟩ := (legal_iff s.cfg).1 hlegal
  have hvalid := Block.endBuffer_of_valid (p := s.cfg)
    (b := (s.block.startInvocation.collected s.cfg bytes s.cfg.frames 0).withControl h.block .collect) hcancel rfl
    ((Nat.mul_comm _ _).trans (rawLen_eq s.cfg).symm)
  rw [Block.foldl_dataBeat_valid hlegal hlength (b := s.block.startInvocation) hcancel houtbuf
    (Block.startInvocation_eq_collected s.cfg bytes s.block), hvalid] at hblock
  have hstored : t.block.outbuf =
      (List.range s.cfg.frames).map (bufferFrame s.cfg bytes s.block.route s.block.clamp) := by
    rw [hblock]
    exact (congrArg _ (List.drop_eq_nil_of_le houtbuf.le)).trans (List.append_nil _)
  have hlargest : t.block.emax = (Finset.range s.cfg.frames).sup (bufferEnergy s.cfg bytes) := by rw [hblock]; rfl
  refine ⟨t, h, ht, hh, by rw [hblock], by rw [hblock], hstored.trans ?_, ?_, ?_, hgot, hcfg, ?_⟩
  · refine List.map_congr_left fun j _ => ?_
    unfold bufferFrame
    cases s.block.route <;> rfl
  · intro j hj
    rw [hlargest]
    exact Finset.le_sup (Finset.mem_range.2 hj)
  · obtain ⟨j, hj, hmax⟩ := Finset.exists_mem_eq_sup (Finset.range s.cfg.frames) ⟨0, Finset.mem_range.2 hframes⟩
      (bufferEnergy s.cfg bytes)
    exact ⟨j, Finset.mem_range.1 hj, hlargest.trans hmax⟩
  · rw [hblock]
    exact ⟨rfl, rfl, rfl, rfl, rfl, rfl, rfl, rfl⟩

end Machine

end Sys2Proof

/-! Running sums (`41_decimation.md` R122 to R125). Of the next byte's position only the offset in its
frame and its parity matter: an even one is the next I sample, an odd one the next Q sample. -/

namespace Sys2Proof

section position

variable {p : Params} {n : Nat}

/-- A frame has an even number of bytes, so a position and its offset have the same parity. -/
theorem offset_mod_two (p : Params) (n : Nat) : n % p.frameLen % 2 = n % 2 :=
  Nat.mod_mod_of_dvd n (Nat.dvd_mul_right 2 p.ratio)

/-- After a byte that does not end its frame the offset moves on by one. -/
theorem succ_mod_frameLen (hlegal : p.legal = true) (hend : p.endsFrame n = false) :
    (n + 1) % p.frameLen = n % p.frameLen + 1 := by
  have hlen : 2 ≤ p.frameLen := (legal_lengths hlegal).2
  have hlt : n % p.frameLen < p.frameLen := Nat.mod_lt n (by omega)
  have hoffset : n % p.frameLen ≠ p.frameLen - 1 := mt (endsFrame_iff p n).2 (by simp [hend])
  rw [Nat.add_mod, Nat.mod_eq_of_lt hlen, Nat.mod_eq_of_lt (by omega)]

/-- A byte at an even position is the next I sample of its frame. -/
theorem iTaken_succ (hlegal : p.legal = true) (hend : p.endsFrame n = false) :
    p.iTaken (n + 1) = if n % 2 = 0 then p.iTaken n + 1 else p.iTaken n := by
  have hparity : n % p.frameLen % 2 = n % 2 := offset_mod_two p n
  rw [Params.iTaken, Params.iTaken, succ_mod_frameLen hlegal hend]
  split <;> omega

/-- A byte at an odd position is the next Q sample of its frame. -/
theorem qTaken_succ (hlegal : p.legal = true) (hend : p.endsFrame n = false) :
    p.qTaken (n + 1) = if n % 2 = 0 then p.qTaken n else p.qTaken n + 1 := by
  have hparity : n % p.frameLen % 2 = n % 2 := offset_mod_two p n
  rw [Params.qTaken, Params.qTaken, succ_mod_frameLen hlegal hend]
  split <;> omega

end position

section runningSum

variable {sum : Int} {m : Nat}

/-- One more code moves a sum by at most 255 (`41_decimation.md` R125 (a)). -/
theorem abs_add_sampleCode_le (h : |sum| ≤ 255 * (m : Int)) (v : Byte) :
    |sum + sampleCode v| ≤ 255 * ((m + 1 : Nat) : Int) := by
  calc |sum + sampleCode v| ≤ |sum| + |sampleCode v| := abs_add_le _ _
    _ ≤ 255 * (m : Int) + 255 := add_le_add h (sampleCode_abs_le v)
    _ = 255 * ((m + 1 : Nat) : Int) := by push_cast; ring

/-- One more code, being odd, flips the parity of a sum. -/
theorem add_sampleCode_parity (h : sum % 2 = (m : Int) % 2) (v : Byte) :
    (sum + sampleCode v) % 2 = ((m + 1 : Nat) : Int) % 2 := by
  have hodd : sampleCode v % 2 = 1 := sampleCode_odd v
  omega

end runningSum

namespace Machine

namespace Block

section sums

variable {p : Params} {b : Block}

/-- Where a frame begins, cleared sums obey the law. -/
theorem sums_of_cleared (hn : b.n % p.frameLen = 0) (hI : b.accI = 0) (hQ : b.accQ = 0) : b.Sums p := by
  constructor <;> simp [Params.iTaken, Params.qTaken, hn, hI, hQ]

theorem Sums.startIfIdle (hs : b.Sums p) : b.startIfIdle.Sums p := by
  obtain ⟨-, h⟩ | ⟨-, h⟩ := b.startIfIdle_cases <;> rw [h]
  · exact sums_of_cleared (Nat.zero_mod _) rfl rfl
  · exact hs

/-- A byte inside its frame is one more sample of its lane, and the other lane waits (`41_decimation.md` R122). -/
theorem Sums.accumulate (hlegal : p.legal = true) (hs : b.Sums p) (hend : p.endsFrame b.n = false) (v : Byte) :
    ({ b.accumulate b.n v with n := b.n + 1 } : Block).Sums p := by
  have hI := iTaken_succ hlegal hend
  have hQ := qTaken_succ hlegal hend
  by_cases heven : b.n % 2 = 0
  · rw [if_pos heven] at hI hQ
    constructor <;> simp only [accumulate_accI, accumulate_accQ, if_pos heven, hI, hQ]
    · exact abs_add_sampleCode_le hs.accI_le v
    · exact hs.accQ_le
    · exact add_sampleCode_parity hs.accI_parity v
    · exact hs.accQ_parity
  · rw [if_neg heven] at hI hQ
    constructor <;> simp only [accumulate_accI, accumulate_accQ, if_neg heven, hI, hQ]
    · exact hs.accI_le
    · exact abs_add_sampleCode_le hs.accQ_le v
    · exact hs.accI_parity
    · exact add_sampleCode_parity hs.accQ_parity v

theorem Sums.useByte (hlegal : p.legal = true) (hs : b.Sums p) (v : Byte) : (b.useByte p v).Sums p := by
  obtain ⟨hend, h⟩ | ⟨hend, h⟩ := useByte_cases p b v <;> rw [h]
  · exact sums_of_cleared (Nat.mod_eq_zero_of_dvd ((endsFrame_iff_dvd hlegal _).1 hend)) rfl rfl
  · exact hs.accumulate hlegal hend v

theorem Sums.dataBeat (hlegal : p.legal = true) (hs : b.Sums p) (v : Byte) : (b.dataBeat p v).Sums p := by
  obtain ⟨-, h⟩ | ⟨-, -, h⟩ | ⟨-, -, h⟩ := dataBeat_cases p b v <;> rw [h]
  · exact hs
  · exact hs.useByte hlegal v
  · exact { hs with }

theorem Sums.endBuffer (hs : b.Sums p) : (b.endBuffer p).Sums p := by
  obtain ⟨-, h⟩ | ⟨-, -, h⟩ | ⟨-, -, -, h⟩ := endBuffer_cases p b <;> rw [h] <;> exact { hs with }

theorem Sums.acceptFrame (hs : b.Sums p) : (b.acceptFrame p).Sums p := by
  obtain ⟨-, h⟩ | ⟨-, h⟩ := acceptFrame_cases p b <;> rw [h] <;> exact { hs with }

end sums

end Block

/-- Every operation keeps the law of the running sums: only a beat, the start of an invocation and reset touch them. -/
theorem Effect.keeps_sums {i : Instr} {s t : State} (h : Effect s i t) (hlegal : s.cfg.legal = true)
    (hs : s.block.Sums s.cfg) : t.block.Sums s.cfg := by
  cases h with
  | answered | ignored | waited => exact hs
  | wroteCtrl | wroteStatus | wroteShutdown | sinkFailed => exact { hs with }
  | beat v => exact { hs.startIfIdle.dataBeat hlegal v with }
  | lastBeat v => exact (hs.startIfIdle.dataBeat hlegal v).endBuffer
  | accepted => exact hs.acceptFrame
  | reset => exact Block.sums_of_cleared (Nat.zero_mod _) rfl rfl

/-- Settles O58: every outcome of an operation keeps the law, and `step_keeps` carries it to the step. -/
theorem stepKeepsTheSums : Obligations.StepKeepsTheSums := fun _ _ hs h =>
  step_keeps (P := fun p b => p.legal = true ∧ b.Sums p)
    (fun _ _ _ ⟨hlegal, hsums⟩ hexec => by
      have heffect := effect_of_exec hexec
      rw [heffect.keeps_cfg]
      exact ⟨hlegal, heffect.keeps_sums hlegal hsums⟩)
    hs h

end Machine

end Sys2Proof

/-! The widths of `00_scope.md` R7: `ceilLog2` is the least exponent, so `W_S` and `W_E` are neither too narrow nor too
wide for a sum within `D` and an energy within `2*D^2`. -/

namespace Sys2Proof

theorem le_two_pow_ceilLog2 (x : Nat) : x ≤ 2 ^ ceilLog2 x := by
  unfold ceilLog2
  split
  · simpa
  · have hlt : x - 1 < 2 ^ ((x - 1).log2 + 1) := Nat.lt_log2_self
    omega

/-- One bit fewer does not reach `x`. -/
theorem two_pow_ceilLog2_sub_one_lt {x : Nat} (hx : 2 ≤ x) : 2 ^ (ceilLog2 x - 1) < x := by
  have hle : 2 ^ (x - 1).log2 ≤ x - 1 := Nat.log2_self_le (by omega)
  rw [ceilLog2, if_neg (by omega), Nat.add_sub_cancel]
  omega

/-- `W_S` bits of two's complement hold every sum within `D` (`41_decimation.md` R125 (d)). -/
theorem sum_within_sumWidth (p : Params) {x : Int} (hx : |x| ≤ 255 * (p.ratio : Int)) :
    -2 ^ (p.sumWidth - 1) ≤ x ∧ x < 2 ^ (p.sumWidth - 1) := by
  have hwidth : p.scale + 1 ≤ 2 ^ (p.sumWidth - 1) := by
    rw [Params.sumWidth, Nat.add_sub_cancel_left]
    exact le_two_pow_ceilLog2 _
  have hcast : 255 * (p.ratio : Int) + 1 ≤ 2 ^ (p.sumWidth - 1) := by exact_mod_cast hwidth
  obtain ⟨hlow, hhigh⟩ := abs_le.1 hx
  constructor <;> linarith

theorem two_pow_sumWidth_sub_two_le {p : Params} (hlegal : p.legal = true) : 2 ^ (p.sumWidth - 2) ≤ p.scale := by
  obtain ⟨hratio, -, -⟩ := (legal_iff p).1 hlegal
  have hscale : 2 ≤ p.scale + 1 := by rw [Params.scale]; omega
  rw [Params.sumWidth, show 1 + ceilLog2 (p.scale + 1) - 2 = ceilLog2 (p.scale + 1) - 1 by omega]
  exact Nat.le_of_lt_succ (two_pow_ceilLog2_sub_one_lt hscale)

/-- `W_E` bits hold every energy of two sums within `D` (`42_magnitude.md` R140). -/
theorem energy_lt_two_pow_energyWidth (p : Params) {x y : Int} (hx : |x| ≤ p.scale) (hy : |y| ≤ p.scale) :
    Machine.energy x y < 2 ^ p.energyWidth :=
  Nat.lt_of_lt_of_le (Nat.lt_succ_of_le (Machine.energy_le hx hy)) (le_two_pow_ceilLog2 _)

theorem two_pow_energyWidth_sub_one_le {p : Params} (hlegal : p.legal = true) :
    2 ^ (p.energyWidth - 1) ≤ 2 * p.scale ^ 2 := by
  obtain ⟨hratio, -, -⟩ := (legal_iff p).1 hlegal
  have hsquare : 1 ≤ p.scale ^ 2 := Nat.one_le_pow _ _ (Nat.mul_pos (by decide) hratio)
  exact Nat.le_of_lt_succ (two_pow_ceilLog2_sub_one_lt (by omega))

/-- Settles O35: `W_S` and `W_E` are least for `D + 1` and `2*D^2 + 1`. -/
theorem widthsHoldEverySumAndEnergy : Obligations.WidthsHoldEverySumAndEnergy := by
  intro p hlegal
  refine ⟨fun _ hx => sum_within_sumWidth p hx, two_pow_sumWidth_sub_two_le hlegal, fun x y hx hy => ⟨?_, ?_⟩,
    two_pow_energyWidth_sub_one_le hlegal⟩
  · rw [Machine.energy_cast, sq, sq]
  · exact energy_lt_two_pow_energyWidth p (by exact_mod_cast hx) (by exact_mod_cast hy)

end Sys2Proof

/-! Constant bytes (`41_decimation.md` R126). The magnitude reads `E` and `D^2` through their ratio only, so scaling
`D` by `RATIO` and `E` by its square changes nothing. -/

namespace Sys2Proof

namespace Machine

theorem magBits_zero (d : Nat) : magBits d 0 = zero32 := if_pos rfl

section scaled

variable {r : Nat} (hr : 1 ≤ r)

include hr

/-- A comparison of squares keeps its outcome when both are scaled. -/
theorem roundSignificand_mul (m num den : Nat) :
    roundSignificand m (r * num) (r * den) = roundSignificand m num den := by
  rw [roundSignificand, roundSignificand, Nat.mul_left_comm, Nat.mul_left_comm 4]
  simp only [Nat.mul_lt_mul_left hr, Nat.mul_right_inj (Nat.ne_of_gt hr)]

theorem negExponent_mul {e : Nat} (he : 1 ≤ e) (dd : Nat) : negExponent (r * e) (r * dd) = negExponent e dd := by
  obtain ⟨hreach, hleast⟩ := negExponent_spec dd he
  refine negExponent_unique (Nat.mul_pos hr he) ?_ (hleast.imp_right fun hlt => ?_)
  · rw [Nat.mul_assoc]
    exact Nat.mul_le_mul_left r hreach
  · rw [Nat.mul_assoc]
    exact Nat.mul_lt_mul_of_pos_left hlt hr

/-- The magnitude does not change when the divisor is scaled and the energy with it (`42_magnitude.md` R143 (e)). -/
theorem magBits_mul (d e : Nat) : magBits (d * r) (r ^ 2 * e) = magBits d e := by
  have hsquare : 1 ≤ r ^ 2 := Nat.one_le_pow _ _ hr
  have hdivisor : d * r * (d * r) = r ^ 2 * (d * d) := by ring
  obtain rfl | he := Nat.eq_zero_or_pos e
  · rw [Nat.mul_zero, magBits_zero, magBits_zero]
  · rw [magBits, magBits, if_neg (Nat.mul_pos hsquare he).ne', if_neg he.ne', hdivisor, negExponent_mul hsquare he]
    simp only [Nat.mul_assoc (r ^ 2) e, Nat.mul_div_mul_left _ _ hsquare, roundSignificand_mul hsquare]

end scaled

theorem energy_mul (r : Nat) (x y : Int) : energy (r * x) (r * y) = r ^ 2 * energy x y := by
  zify
  rw [energy_cast, energy_cast]
  ring

end Machine

/-- A lane whose samples are all the byte `v` sums to their count times its code. -/
theorem laneSum_const {p : Params} {bytes : List Byte} {lane j k : Nat} {v : Byte}
    (h : ∀ i, i < k → bytes[2 * p.ratio * j + 2 * i + lane]? = some v) :
    laneSum p bytes lane j k = k * sampleCode v := by
  induction k with
  | zero => simp [laneSum]
  | succ k ih =>
    rw [laneSum_succ, ih fun i hi => h i (by omega), List.getD_eq_getElem?_getD, h k (by omega)]
    push_cast
    simp only [Option.getD_some]
    ring

/-- Settles O42: both sums are `RATIO` times a code, and the magnitude does not see the common factor. -/
theorem constantBytesGiveTheirExactMean : Obligations.ConstantBytesGiveTheirExactMean := by
  intro p bytes j x y hlegal _ _ hbytes
  obtain ⟨hratio, -, -⟩ := (legal_iff p).1 hlegal
  have hI : sumI p bytes j = p.ratio * sampleCode x :=
    (sumI_eq_laneSum p bytes j).trans (laneSum_const fun k hk => (hbytes k hk).1)
  have hQ : sumQ p bytes j = p.ratio * sampleCode y :=
    (sumQ_eq_laneSum p bytes j).trans (laneSum_const fun k hk => (hbytes k hk).2)
  refine ⟨hI, hQ, ?_⟩
  rw [bufferEnergy_eq, hI, hQ, Machine.energy_mul, Params.scale, Machine.magBits_mul hratio]

end Sys2Proof

/-! A beat in `COLLECT`, its next state written out (`40_invocation.md` R102, R103; `41_decimation.md` R122 to R124). -/

namespace Sys2Proof.Machine

/-- In `COLLECT` a beat uses its byte in the invocation in flight and stays in `COLLECT`. -/
theorem exec_iqBeat_of_collect (v : Byte) {s : State} (h : s.block.phase = .collect) :
    exec (.iqBeat v) s = .next (s.withBlock (s.block.dataBeat s.cfg v)) := by
  have hkept : (s.block.dataBeat s.cfg v).phase = .collect := by rw [Block.dataBeat_phase, h]
  rw [exec_iqBeat_of_not_sink v (by simp [h]), Block.startIfIdle_of_not_idle (by simp [h]), ← hkept]

/-- The sums after a byte, the rest as before (`41_decimation.md` R122). -/
theorem Block.accumulate_eq (b : Block) (m : Nat) (v : Byte) :
    b.accumulate m v = { b with
      accI := if m % 2 = 0 then b.accI + sampleCode v else b.accI
      accQ := if m % 2 = 0 then b.accQ else b.accQ + sampleCode v } := by
  unfold accumulate
  split <;> rfl

/-- Settles O21: the byte is used, does not end its frame, and goes to the lane of its parity. -/
theorem beatAddsItsCodeToItsLane : Obligations.BeatAddsItsCodeToItsLane := by
  intro v s hcollect hc hn hinside
  have hend : s.cfg.endsFrame s.block.n = false := by
    rw [← Bool.not_eq_true]
    exact mt (endsFrame_iff s.cfg _).1 hinside
  rw [exec_iqBeat_of_collect v hcollect, Block.dataBeat_of_lt v hc hn, Block.useByte_of_not_endsFrame v hend,
    Block.accumulate_eq]
  rfl

/-- Settles O22: the last position of a frame is odd, so the byte is a Q sample and the completed frame includes it. -/
theorem beatEndingAFrameStoresIt : Obligations.BeatEndingAFrameStoresIt := by
  intro v s hratio hcollect hc hn hlast
  have hodd : ¬s.block.n % 2 = 0 := by
    have hparity : s.block.n % s.cfg.frameLen % 2 = s.block.n % 2 := offset_mod_two s.cfg _
    rw [Params.frameLen, hlast] at hparity
    omega
  rw [exec_iqBeat_of_collect v hcollect, Block.dataBeat_of_lt v hc hn,
    Block.useByte_of_endsFrame v ((endsFrame_iff s.cfg _).2 hlast), Block.accumulate_eq, if_neg hodd, if_neg hodd]
  simp only [Block.completeFrame, Block.peakUpdate]
  cases s.block.invRoute <;> rfl

/-- Settles O23. -/
theorem excessAndCancelledBeatsAreNotUsed : Obligations.ExcessAndCancelledBeatsAreNotUsed := by
  refine fun v s hcollect => ⟨fun hc hn => ?_, fun hc => ?_⟩
  · rw [exec_iqBeat_of_collect v hcollect, Block.dataBeat_of_ge v hc hn]
    rfl
  · rw [exec_iqBeat_of_collect v hcollect, Block.dataBeat_of_cancelled v hc]
    rfl

end Sys2Proof.Machine

/-! The significand of `MagBits` (`42_magnitude.md` R142): within the legal energies the exponent is small, the
truncated significand brackets `sqrt(E)/D` between two successive patterns, and the answer is one of the two. -/

namespace Sys2Proof.Machine

/-- `num` of `MagBits`: the energy over which the significand is computed, `E * 4^s` (`42_magnitude.md` R142). -/
def scaledEnergy (d e : Nat) : Nat := e * 4 ^ (23 + negExponent e (d * d))

/-- The significand of `MagBits` before it is rounded (`42_magnitude.md` R142, step 2). -/
def truncatedSignificand (d e : Nat) : Nat := isqrt (scaledEnergy d e / (d * d))

/-- The significand of `MagBits` after it is rounded (`42_magnitude.md` R142, step 3). -/
def significand (d e : Nat) : Nat := roundSignificand (truncatedSignificand d e) (scaledEnergy d e) (d * d)

theorem magBits_of_pos (d : Nat) {e : Nat} (he : 1 ≤ e) :
    magBits d e = if significand d e = 2 ^ 24 then packBinary32 (1 - (negExponent e (d * d) : Int)) (2 ^ 23)
      else packBinary32 (-(negExponent e (d * d) : Int)) (significand d e) :=
  if_neg (Nat.ne_of_gt he)

section range

variable {d e : Nat} (he : 1 ≤ e) (hmax : e ≤ 2 * d ^ 2) (hd : d < 2 ^ 39)

include he hmax in
theorem divisor_sq_pos : 0 < d * d := by
  rw [← sq]
  omega

include he hd in
/-- A legal divisor needs at most 39 doublings, so the exponent stays far above the subnormals. -/
theorem negExponent_le : negExponent e (d * d) ≤ 39 := by
  obtain ⟨-, hzero | hleast⟩ := negExponent_spec (d * d) he
  · omega
  · by_contra hlarge
    have hpow : 4 ^ 39 ≤ 4 ^ (negExponent e (d * d) - 1) := Nat.pow_le_pow_right (by decide) (by omega)
    have hmul : 1 * 4 ^ 39 ≤ e * 4 ^ (negExponent e (d * d) - 1) := Nat.mul_le_mul he hpow
    have hsq : d * d < 2 ^ 39 * 2 ^ 39 := Nat.mul_self_lt_mul_self hd
    omega

include he in
theorem le_scaledEnergy (d : Nat) : 4 ^ 23 * (d * d) ≤ scaledEnergy d e := by
  obtain ⟨hreach, -⟩ := negExponent_spec (d * d) he
  rw [scaledEnergy, pow_add, Nat.mul_left_comm e]
  exact Nat.mul_le_mul_left _ hreach

include he hmax in
theorem scaledEnergy_lt : scaledEnergy d e < 4 ^ 24 * (d * d) := by
  have hdd := divisor_sq_pos he hmax
  have hlt : e * 4 ^ negExponent e (d * d) < 4 * (d * d) := by
    obtain ⟨-, hleast⟩ := negExponent_spec (d * d) he
    cases hk : negExponent e (d * d) with
    | zero => rw [sq] at hmax; omega
    | succ k =>
      rw [hk, Nat.add_sub_cancel] at hleast
      obtain hzero | hlt := hleast
      · omega
      · rw [pow_succ, ← Nat.mul_assoc]
        omega
  calc scaledEnergy d e = 4 ^ 23 * (e * 4 ^ negExponent e (d * d)) := by
        rw [scaledEnergy, pow_add, Nat.mul_left_comm e]
    _ < 4 ^ 23 * (4 * (d * d)) := Nat.mul_lt_mul_of_pos_left hlt (by decide)
    _ = 4 ^ 24 * (d * d) := by omega

include he hmax in
/-- The truncated significand is the integer part of `sqrt(E)/D` over its last place. -/
theorem truncatedSignificand_spec :
    truncatedSignificand d e ^ 2 * (d * d) ≤ scaledEnergy d e ∧
      scaledEnergy d e < (truncatedSignificand d e + 1) ^ 2 * (d * d) := by
  have hdd := divisor_sq_pos he hmax
  obtain ⟨hle, hlt⟩ := isqrt_spec (scaledEnergy d e / (d * d))
  rw [sq, sq]
  exact ⟨(Nat.le_div_iff_mul_le hdd).1 hle, (Nat.div_lt_iff_lt_mul hdd).1 hlt⟩

include he hmax in
theorem truncatedSignificand_bounds : 2 ^ 23 ≤ truncatedSignificand d e ∧ truncatedSignificand d e < 2 ^ 24 := by
  have hdd := divisor_sq_pos he hmax
  obtain ⟨hle, hlt⟩ := isqrt_spec (scaledEnergy d e / (d * d))
  have hlow : 2 ^ 23 * 2 ^ 23 ≤ scaledEnergy d e / (d * d) := (Nat.le_div_iff_mul_le hdd).2 (le_scaledEnergy he d)
  have hhigh : scaledEnergy d e / (d * d) < 2 ^ 24 * 2 ^ 24 := (Nat.div_lt_iff_lt_mul hdd).2 (scaledEnergy_lt he hmax)
  exact ⟨Nat.le_of_lt_succ (Nat.mul_self_lt_mul_self_iff.1 (hlow.trans_lt hlt)),
    Nat.mul_self_lt_mul_self_iff.1 (hle.trans_lt hhigh)⟩

include he hmax in
theorem significand_bounds : 2 ^ 23 ≤ significand d e ∧ significand d e ≤ 2 ^ 24 := by
  obtain ⟨hlow, hhigh⟩ := truncatedSignificand_bounds he hmax
  obtain ⟨h, -, -⟩ | ⟨h, -, -⟩ := roundSignificand_cases (truncatedSignificand d e) (scaledEnergy d e) (d * d) <;>
    rw [significand, h] <;> omega

include he hmax in
/-- At the top exponent the significand does not overflow: `sqrt(E)/D` is at most `sqrt(2)`. -/
theorem significand_lt_of_negExponent_zero (hk : negExponent e (d * d) = 0) : significand d e < 2 ^ 24 := by
  have hdd := divisor_sq_pos he hmax
  obtain ⟨-, hhigh⟩ := truncatedSignificand_bounds he hmax
  obtain ⟨h, -, -⟩ | ⟨h, hup, -⟩ := roundSignificand_cases (truncatedSignificand d e) (scaledEnergy d e) (d * d)
  · rwa [significand, h]
  · rw [significand, h]
    by_contra hover
    have htop : truncatedSignificand d e = 2 ^ 24 - 1 := by omega
    rw [sq] at hmax
    rw [htop, scaledEnergy, hk] at hup
    omega

include he hmax hd in
/-- A magnitude as a number: a rounding up to `2^24` carries into the exponent, so one sum covers both of its forms. -/
theorem magBits_toNat :
    (magBits d e).toNat = (126 - negExponent e (d * d)) * 2 ^ 23 + significand d e := by
  have hk := negExponent_le he hd
  obtain ⟨hlow, hhigh⟩ := significand_bounds he hmax
  rw [magBits_of_pos d he]
  split
  · rename_i hcarry
    have hpos : negExponent e (d * d) ≠ 0 := fun hzero =>
      Nat.ne_of_lt (significand_lt_of_negExponent_zero he hmax hzero) hcarry
    have hexp : 1 - (negExponent e (d * d) : Int) = -((negExponent e (d * d) - 1 : Nat) : Int) := by omega
    rw [hexp, packBinary32_toNat (by omega) le_rfl (by decide), hcarry]
    omega
  · rw [packBinary32_toNat (by omega) hlow (by omega)]
    omega

end range

end Sys2Proof.Machine

/-! The magnitude of an energy in range, from its significand (`42_magnitude.md` R143). -/

namespace Sys2Proof

theorem scale_lt {p : Params} (hlegal : p.legal = true) : p.scale < 2 ^ 39 := by
  obtain ⟨-, hframes, hproduct⟩ := (legal_iff p).1 hlegal
  have hratio : 2 * 1 * p.ratio ≤ 2 * p.frames * p.ratio := Nat.mul_le_mul_right _ (Nat.mul_le_mul_left _ hframes)
  rw [Params.scale]
  omega

theorem scale_pos {p : Params} (hlegal : p.legal = true) : 1 ≤ p.scale := by
  obtain ⟨hratio, -, -⟩ := (legal_iff p).1 hlegal
  exact Nat.mul_pos (by decide) hratio

/-- Settles O36: the exponent field lies between 88 and 128. -/
theorem magnitudeIsZeroOrNormal : Obligations.MagnitudeIsZeroOrNormal := by
  refine fun p hlegal => ⟨Machine.magBits_zero _, fun e he hmax => ?_⟩
  have hk := Machine.negExponent_le he (scale_lt hlegal)
  obtain ⟨hlow, hhigh⟩ := Machine.significand_bounds he hmax
  rw [Machine.magBits_toNat he hmax (scale_lt hlegal)]
  omega

/-- Settles O38: both are a magnitude at `D = 1`, scaled. -/
theorem fullScaleMagnitudes : Obligations.FullScaleMagnitudes := by
  intro p hlegal
  have hscaled (x : Nat) : Machine.magBits p.scale (p.scale ^ 2 * x) = Machine.magBits 1 x := by
    simpa only [Nat.one_mul] using Machine.magBits_mul (scale_pos hlegal) 1 x
  have htwo : Machine.magBits 1 2 = 0x3FB504F3 := by decide
  have hone : Machine.magBits 1 1 = 0x3F800000 := by decide
  exact ⟨by rw [Nat.mul_comm, hscaled, htwo], by rw [← Nat.mul_one (p.scale ^ 2), hscaled, hone]⟩

/-- Settles O39: a common factor of `D` and `sqrt(E)` does not show. -/
theorem magnitudeOfConstantBytesIgnoresRatio : Obligations.MagnitudeOfConstantBytesIgnoresRatio := by
  intro p hlegal x _
  obtain ⟨hratio, -, -⟩ := (legal_iff p).1 hlegal
  exact Machine.magBits_mul hratio 255 x

end Sys2Proof

/-! The finite non-negative binary32 patterns as numbers, and their values in units of `2^-149` (`00_scope.md` R13). -/

namespace Sys2Proof

/-- `binary32Units` over the pattern as a number. -/
def patternUnits (n : Nat) : Nat :=
  if n / 2 ^ 23 = 0 then n % 2 ^ 23 else (2 ^ 23 + n % 2 ^ 23) * 2 ^ (n / 2 ^ 23 - 1)

theorem binary32Units_eq {b : Word} (hb : b.toNat < 0x7F800000) : binary32Units b = patternUnits b.toNat := by
  have hexp : b.toNat / 2 ^ 23 % 2 ^ 8 = b.toNat / 2 ^ 23 := Nat.mod_eq_of_lt (by omega)
  simp only [binary32Units, patternUnits, BitVec.extractLsb'_toNat, Nat.shiftRight_eq_div_pow, hexp, pow_zero,
    Nat.div_one]

/-- The value of a normal pattern, one place past its significands included: there the exponent takes over. -/
theorem patternUnits_normal (q : Nat) {m : Nat} (hlow : 2 ^ 23 ≤ m) (hhigh : m ≤ 2 ^ 24) :
    patternUnits (q * 2 ^ 23 + m) = m * 2 ^ q := by
  obtain rfl | hlt := Nat.eq_or_lt_of_le hhigh
  · rw [patternUnits, show (q * 2 ^ 23 + 2 ^ 24) / 2 ^ 23 = q + 2 by omega,
      show (q * 2 ^ 23 + 2 ^ 24) % 2 ^ 23 = 0 by omega, if_neg (by omega), show q + 2 - 1 = q + 1 by omega, pow_succ 2 q]
    ring
  · rw [patternUnits, show (q * 2 ^ 23 + m) / 2 ^ 23 = q + 1 by omega,
      show (q * 2 ^ 23 + m) % 2 ^ 23 = m - 2 ^ 23 by omega, if_neg (by omega), Nat.add_sub_cancel,
      Nat.add_sub_cancel' hlow]

theorem patternUnits_subnormal {n : Nat} (h : n < 2 ^ 23) : patternUnits n = n := by
  rw [patternUnits, if_pos (Nat.div_eq_of_lt h), Nat.mod_eq_of_lt h]

/-- The next pattern is the next value, across the subnormals and at each power of two. -/
theorem patternUnits_strictMono : StrictMono patternUnits := by
  refine strictMono_nat_of_lt_succ fun n => ?_
  obtain hsub | hnormal := Nat.lt_or_ge n (2 ^ 23)
  · rw [patternUnits_subnormal hsub]
    obtain hsub' | htop := Nat.lt_or_eq_of_le hsub
    · rw [patternUnits_subnormal hsub']
      omega
    · have hunit := patternUnits_normal 0 (m := n + 1) (by omega) (by omega)
      rw [Nat.zero_mul, Nat.zero_add] at hunit
      omega
  · have hsplit : n = (n / 2 ^ 23 - 1) * 2 ^ 23 + (n % 2 ^ 23 + 2 ^ 23) := by omega
    rw [hsplit, Nat.add_assoc _ _ 1, patternUnits_normal _ (by omega) (by omega),
      patternUnits_normal _ (by omega) (by omega)]
    exact Nat.mul_lt_mul_of_pos_right (Nat.lt_succ_self _) (Nat.two_pow_pos _)

theorem binary32Value_eq {b : Word} (hb : b.toNat < 0x7F800000) :
    binary32Value b = (patternUnits b.toNat : ℝ) / 2 ^ 149 := by
  rw [binary32Value, binary32Units_eq hb]

theorem binary32Value_lt_iff {b c : Word} (hb : b.toNat < 0x7F800000) (hc : c.toNat < 0x7F800000) :
    binary32Value b < binary32Value c ↔ b.toNat < c.toNat := by
  rw [binary32Value_eq hb, binary32Value_eq hc, div_lt_div_iff_of_pos_right (by positivity), Nat.cast_lt,
    patternUnits_strictMono.lt_iff_lt]

/-! Nearest values: where `x` lies between two successive patterns, only those two can be nearest. -/

theorem abs_sub_binary32Value (x : ℝ) {b : Word} (hb : b.toNat < 0x7F800000) :
    |x - binary32Value b| = |x * 2 ^ 149 - patternUnits b.toNat| / 2 ^ 149 := by
  rw [binary32Value_eq hb, ← abs_of_pos (show (0 : ℝ) < 2 ^ 149 by positivity), ← abs_div,
    abs_of_pos (show (0 : ℝ) < 2 ^ 149 by positivity), sub_div, mul_div_cancel_right₀ _ (by positivity)]

/-- `IsNearestEven` in units of `2^-149`, over the patterns as numbers. -/
theorem isNearestEven_of_units {x : ℝ} {b : Word} (hb : b.toNat < 0x7F800000)
    (h : ∀ n : Nat, n ≠ b.toNat →
      |x * 2 ^ 149 - patternUnits b.toNat| ≤ |x * 2 ^ 149 - patternUnits n| ∧
        (|x * 2 ^ 149 - patternUnits b.toNat| = |x * 2 ^ 149 - patternUnits n| → b.toNat % 2 = 0)) :
    IsNearestEven x b := by
  refine ⟨hb, fun c hc hne => ?_⟩
  rw [abs_sub_binary32Value x hb, abs_sub_binary32Value x hc, div_le_div_iff_of_pos_right (by positivity),
    div_left_inj' (by positivity)]
  exact h c.toNat (mt BitVec.eq_of_toNat_eq hne)

/-- In the lower half of the gap above `b`, and at its middle where `b` is even, `b` is nearest. -/
theorem isNearestEven_of_lower_half {x : ℝ} {b : Word} {k : Nat} (hb : b.toNat < 0x7F800000) (hk : b.toNat = k)
    (hlow : (patternUnits k : ℝ) ≤ x * 2 ^ 149)
    (hmid : 2 * (x * 2 ^ 149) ≤ patternUnits k + patternUnits (k + 1))
    (htie : 2 * (x * 2 ^ 149) = patternUnits k + patternUnits (k + 1) → k % 2 = 0) :
    IsNearestEven x b := by
  refine isNearestEven_of_units hb fun n hne => ?_
  rw [hk] at hne ⊢
  rw [abs_of_nonneg (sub_nonneg.2 hlow)]
  obtain hbelow | habove := Nat.lt_or_gt_of_ne hne
  · have hunits : (patternUnits n : ℝ) < patternUnits k := by exact_mod_cast patternUnits_strictMono hbelow
    rw [abs_of_pos (by linarith)]
    exact ⟨by linarith, fun heq => htie (by linarith)⟩
  · have hunits : (patternUnits (k + 1) : ℝ) ≤ patternUnits n := by
      exact_mod_cast patternUnits_strictMono.monotone habove
    have hgap : (patternUnits k : ℝ) < patternUnits n := by exact_mod_cast patternUnits_strictMono habove
    rw [abs_of_neg (by linarith)]
    exact ⟨by linarith, fun heq => htie (by linarith)⟩

/-- In the upper half of the gap below `b`, and at its middle where `b` is even, `b` is nearest. -/
theorem isNearestEven_of_upper_half {x : ℝ} {b : Word} {k : Nat} (hb : b.toNat < 0x7F800000) (hk : b.toNat = k + 1)
    (hhigh : x * 2 ^ 149 ≤ patternUnits (k + 1))
    (hmid : (patternUnits k + patternUnits (k + 1) : ℝ) ≤ 2 * (x * 2 ^ 149))
    (htie : 2 * (x * 2 ^ 149) = patternUnits k + patternUnits (k + 1) → (k + 1) % 2 = 0) :
    IsNearestEven x b := by
  refine isNearestEven_of_units hb fun n hne => ?_
  rw [hk] at hne ⊢
  rw [abs_of_nonpos (sub_nonpos.2 hhigh)]
  obtain hbelow | habove := Nat.lt_or_gt_of_ne hne
  · have hunits : (patternUnits n : ℝ) ≤ patternUnits k := by
      exact_mod_cast patternUnits_strictMono.monotone (Nat.le_of_lt_succ hbelow)
    have hgap : (patternUnits n : ℝ) < patternUnits (k + 1) := by exact_mod_cast patternUnits_strictMono hbelow
    rw [abs_of_pos (by linarith)]
    exact ⟨by linarith, fun heq => htie (by linarith)⟩
  · have hunits : (patternUnits (k + 1) : ℝ) < patternUnits n := by exact_mod_cast patternUnits_strictMono habove
    rw [abs_of_neg (by linarith)]
    exact ⟨by linarith, fun heq => htie (by linarith)⟩

end Sys2Proof

/-! `sqrt(E)/D` among the patterns (`42_magnitude.md` R141, R143 (b)). -/

namespace Sys2Proof

/-- `sqrt(E)/D` in units of `2^-149`. -/
noncomputable def rootUnits (d e : Nat) : ℝ := √(e : ℝ) / d * 2 ^ 149

section root

variable {d : Nat} (hd : 1 ≤ d) (e a : Nat) {j : Nat}

/-- A power of two of the unit can stand under the root. -/
theorem rootUnits_eq (hj : j ≤ 149) : rootUnits d e = √((e * 4 ^ j : Nat) : ℝ) / d * 2 ^ (149 - j) := by
  have hpow : (4 : ℝ) ^ j = (2 ^ j) ^ 2 := by rw [← pow_mul, mul_comm, pow_mul]; norm_num
  have hsplit : (2 : ℝ) ^ 149 = 2 ^ j * 2 ^ (149 - j) := by rw [← pow_add, Nat.add_sub_cancel' hj]
  rw [rootUnits, Nat.cast_mul, Nat.cast_pow, Nat.cast_ofNat, hpow, Real.sqrt_mul (by positivity),
    Real.sqrt_sq (by positivity), hsplit]
  ring

/-- Twice the middle of two neighbours is their sum, and the middle has one place more. -/
theorem middle_units (hj : j ≤ 148) :
    ((a * 2 ^ (149 - j) : Nat) + ((a + 1) * 2 ^ (149 - j) : Nat) : ℝ) =
      2 * ((2 * a + 1) * 2 ^ (149 - (j + 1)) : Nat) := by
  rw [show 149 - j = 149 - (j + 1) + 1 by omega, pow_succ]
  push_cast
  ring

include hd

/-- Where `sqrt(E)/D` lies is decided on integers, by squaring (`42_magnitude.md` R142). -/
theorem le_root_iff (hj : j ≤ 149) :
    ((a * 2 ^ (149 - j) : Nat) : ℝ) ≤ rootUnits d e ↔ a ^ 2 * (d * d) ≤ e * 4 ^ j := by
  have hpos : (0 : ℝ) < d := by exact_mod_cast hd
  rw [rootUnits_eq e hj, Nat.cast_mul a, Nat.cast_pow 2, Nat.cast_ofNat, mul_le_mul_iff_left₀ (by positivity),
    le_div_iff₀ hpos, Real.le_sqrt (by positivity) (by positivity), ← sq d, ← mul_pow]
  norm_cast

theorem root_le_iff (hj : j ≤ 149) :
    rootUnits d e ≤ ((a * 2 ^ (149 - j) : Nat) : ℝ) ↔ e * 4 ^ j ≤ a ^ 2 * (d * d) := by
  have hpos : (0 : ℝ) < d := by exact_mod_cast hd
  rw [rootUnits_eq e hj, Nat.cast_mul a, Nat.cast_pow 2, Nat.cast_ofNat, mul_le_mul_iff_left₀ (by positivity),
    div_le_iff₀ hpos, Real.sqrt_le_left (by positivity), ← sq d, ← mul_pow]
  norm_cast

theorem middle_le_root_iff (hj : j ≤ 148) :
    ((a * 2 ^ (149 - j) : Nat) + ((a + 1) * 2 ^ (149 - j) : Nat) : ℝ) ≤ 2 * rootUnits d e ↔
      (2 * a + 1) ^ 2 * (d * d) ≤ 4 * (e * 4 ^ j) := by
  rw [middle_units a hj, mul_le_mul_iff_right₀ two_pos, le_root_iff hd e _ (Nat.succ_le_succ hj), pow_succ 4,
    ← Nat.mul_assoc e, Nat.mul_comm 4]

theorem root_le_middle_iff (hj : j ≤ 148) :
    2 * rootUnits d e ≤ ((a * 2 ^ (149 - j) : Nat) + ((a + 1) * 2 ^ (149 - j) : Nat) : ℝ) ↔
      4 * (e * 4 ^ j) ≤ (2 * a + 1) ^ 2 * (d * d) := by
  rw [middle_units a hj, mul_le_mul_iff_right₀ two_pos, root_le_iff hd e _ (Nat.succ_le_succ hj), pow_succ 4,
    ← Nat.mul_assoc e, Nat.mul_comm 4]

end root

theorem isNearestEven_zero : IsNearestEven 0 Machine.zero32 := by
  refine isNearestEven_of_lower_half (k := 0) (by decide) rfl ?_ ?_ fun _ => rfl <;> rw [zero_mul]
  · exact (Nat.cast_eq_zero.2 (patternUnits_subnormal (by decide))).le
  · rw [mul_zero]
    positivity

namespace Machine

/-- The pattern just below `sqrt(E)/D`: the truncated significand under its exponent. -/
def floorPattern (d e : Nat) : Nat := (126 - negExponent e (d * d)) * 2 ^ 23 + truncatedSignificand d e

section nearest

variable {d e : Nat} (he : 1 ≤ e) (hmax : e ≤ 2 * d ^ 2) (hd : d < 2 ^ 39)

include he hmax

theorem divisor_pos : 1 ≤ d := Nat.pos_of_mul_pos_left (divisor_sq_pos he hmax)

theorem patternUnits_floorPattern :
    patternUnits (floorPattern d e) = truncatedSignificand d e * 2 ^ (149 - (23 + negExponent e (d * d))) := by
  obtain ⟨hlow, hhigh⟩ := truncatedSignificand_bounds he hmax
  rw [floorPattern, patternUnits_normal _ hlow hhigh.le, Nat.sub_add_eq 149]

theorem patternUnits_floorPattern_succ :
    patternUnits (floorPattern d e + 1) =
      (truncatedSignificand d e + 1) * 2 ^ (149 - (23 + negExponent e (d * d))) := by
  obtain ⟨hlow, hhigh⟩ := truncatedSignificand_bounds he hmax
  rw [floorPattern, Nat.add_assoc, patternUnits_normal _ (by omega) hhigh, Nat.sub_add_eq 149]

include hd

/-- Rounding answers the pattern below `sqrt(E)/D` or the next, by the side of their middle on which it lies. -/
theorem magBits_cases :
    ((magBits d e).toNat = floorPattern d e ∧
      2 * rootUnits d e ≤ patternUnits (floorPattern d e) + patternUnits (floorPattern d e + 1) ∧
      (2 * rootUnits d e = patternUnits (floorPattern d e) + patternUnits (floorPattern d e + 1) →
        floorPattern d e % 2 = 0)) ∨
    ((magBits d e).toNat = floorPattern d e + 1 ∧
      patternUnits (floorPattern d e) + patternUnits (floorPattern d e + 1) ≤ 2 * rootUnits d e ∧
      (2 * rootUnits d e = patternUnits (floorPattern d e) + patternUnits (floorPattern d e + 1) →
        (floorPattern d e + 1) % 2 = 0)) := by
  have hk : 23 + negExponent e (d * d) ≤ 148 := by linarith [negExponent_le he hd]
  have hdpos := divisor_pos he hmax
  have hle := root_le_middle_iff hdpos e (truncatedSignificand d e) hk
  have hge := middle_le_root_iff hdpos e (truncatedSignificand d e) hk
  rw [patternUnits_floorPattern he hmax, patternUnits_floorPattern_succ he hmax, magBits_toNat he hmax hd,
    floorPattern, significand]
  rw [← scaledEnergy] at hle hge
  obtain ⟨h, hside, htie⟩ | ⟨h, hside, htie⟩ :=
    roundSignificand_cases (truncatedSignificand d e) (scaledEnergy d e) (d * d)
  · refine .inl ⟨by rw [h], hle.2 hside, fun hmiddle => ?_⟩
    have heven := htie (Nat.le_antisymm (hge.1 hmiddle.ge) (hle.1 hmiddle.le))
    omega
  · refine .inr ⟨by rw [h, Nat.add_assoc], hge.2 hside, fun hmiddle => ?_⟩
    have hodd := htie (Nat.le_antisymm (hge.1 hmiddle.ge) (hle.1 hmiddle.le))
    omega

theorem floorPattern_le_root : (patternUnits (floorPattern d e) : ℝ) ≤ rootUnits d e := by
  have hk := negExponent_le he hd
  rw [patternUnits_floorPattern he hmax, le_root_iff (divisor_pos he hmax) e _ (by omega)]
  exact (truncatedSignificand_spec he hmax).1

theorem root_le_floorPattern_succ : rootUnits d e ≤ patternUnits (floorPattern d e + 1) := by
  have hk := negExponent_le he hd
  rw [patternUnits_floorPattern_succ he hmax, root_le_iff (divisor_pos he hmax) e _ (by omega)]
  exact (truncatedSignificand_spec he hmax).2.le

theorem magBits_finite : (magBits d e).toNat < 0x7F800000 := by
  obtain ⟨-, hhigh⟩ := significand_bounds he hmax
  rw [magBits_toNat he hmax hd]
  omega

/-- `MagBits` of a positive energy in range is the nearest value (`42_magnitude.md` R141). -/
theorem magBits_isNearestEven : IsNearestEven (√(e : ℝ) / d) (magBits d e) := by
  have hfinite := magBits_finite he hmax hd
  obtain ⟨h, hmid, htie⟩ | ⟨h, hmid, htie⟩ := magBits_cases he hmax hd
  · exact isNearestEven_of_lower_half hfinite h (floorPattern_le_root he hmax hd) hmid htie
  · exact isNearestEven_of_upper_half hfinite h (root_le_floorPattern_succ he hmax hd) hmid htie

end nearest

end Machine

/-- Settles O40: 0 is exact, and every other energy lies between two patterns that the rounding chooses from. -/
theorem magnitudeIsCorrectlyRounded : Obligations.MagnitudeIsCorrectlyRounded := by
  intro p hlegal e hmax
  obtain rfl | he := Nat.eq_zero_or_pos e
  · rw [Machine.magBits_zero, Nat.cast_zero, Real.sqrt_zero, zero_div]
    exact isNearestEven_zero
  · exact Machine.magBits_isNearestEven he hmax (scale_lt hlegal)

/-- A nearest value of a larger number is not smaller: both numbers would lie on the wrong side of the middle. -/
theorem IsNearestEven.mono {x y : ℝ} {b c : Word} (hxy : x < y) (hb : IsNearestEven x b) (hc : IsNearestEven y c) :
    b.toNat ≤ c.toNat := by
  obtain ⟨hbfinite, hbnear⟩ := hb
  obtain ⟨hcfinite, hcnear⟩ := hc
  by_contra hlt
  have hne : c ≠ b := fun h => hlt (h ▸ le_rfl)
  have hvalue := (binary32Value_lt_iff hcfinite hbfinite).2 (Nat.lt_of_not_le hlt)
  have hxmid := sq_le_sq.2 (hbnear c hcfinite hne).1
  have hymid := sq_le_sq.2 (hcnear b hbfinite hne.symm).1
  nlinarith

/-- Settles O37: a larger energy has a larger root, whose nearest value is not smaller. -/
theorem magnitudeIsMonotone : Obligations.MagnitudeIsMonotone := by
  intro p hlegal e₁ e₂ hle hmax
  have hnear₁ := magnitudeIsCorrectlyRounded p hlegal e₁ (hle.trans hmax)
  have hnear₂ := magnitudeIsCorrectlyRounded p hlegal e₂ hmax
  have hbits : (Machine.magBits p.scale e₁).toNat ≤ (Machine.magBits p.scale e₂).toNat := by
    obtain rfl | hlt := Nat.eq_or_lt_of_le hle
    · exact le_rfl
    · have hpos : (0 : ℝ) < p.scale := by exact_mod_cast scale_pos hlegal
      have hroot : √(e₁ : ℝ) < √(e₂ : ℝ) := Real.sqrt_lt_sqrt (by positivity) (by exact_mod_cast hlt)
      exact hnear₁.mono (div_lt_div_of_pos_right hroot hpos) hnear₂
  exact ⟨hbits, not_lt.1 (mt (binary32Value_lt_iff hnear₂.1 hnear₁.1).1 (Nat.not_lt.2 hbits))⟩

end Sys2Proof

/-! The values of an invocation (`43_formatter.md` R162 to R170): every energy is at most `2*D^2`, the largest one gives
the largest magnitude, and a stored frame obeys the snapshots it is stored under. -/

namespace Sys2Proof.Machine

/-! ### Samples -/

theorem sample_false (d e : Nat) : sample d e false = magBits d e := if_neg (by simp)

theorem sample_true_toNat (d e : Nat) : (sample d e true).toNat = min (magBits d e).toNat 0x3F800000 := by
  unfold sample
  split
  · rename_i hover
    exact (Nat.min_eq_right (BitVec.lt_def.1 hover.2).le).symm
  · rename_i hwithin
    exact (Nat.min_eq_left (Nat.not_lt.1 fun hlt => hwithin ⟨rfl, BitVec.lt_def.2 hlt⟩)).symm

/-- Settles O41. -/
theorem sampleIsTheMagnitudeOrItsClamp : Obligations.SampleIsTheMagnitudeOrItsClamp :=
  fun d e => ⟨sample_false d e, sample_true_toNat d e⟩

theorem sample_le_magBits (d e : Nat) (clamp : Bool) : sample d e clamp ≤ magBits d e := by
  cases clamp with
  | false => exact BitVec.le_of_eq (sample_false d e)
  | true => rw [BitVec.le_def, sample_true_toNat]; exact Nat.min_le_left _ _

theorem sample_le_one32 (d e : Nat) : sample d e true ≤ one32 := by
  rw [BitVec.le_def, sample_true_toNat]
  exact Nat.min_le_right _ _

/-- The largest energy has the largest magnitude (`42_magnitude.md` R143 (c)). -/
theorem magBits_le_maxSample {p : Params} (hlegal : p.legal = true) {e : Nat} (hmax : e ≤ 2 * p.scale ^ 2) :
    magBits p.scale e ≤ maxSample := by
  obtain ⟨hmono, -⟩ := magnitudeIsMonotone p hlegal e _ hmax le_rfl
  rwa [(fullScaleMagnitudes p hlegal).1] at hmono

/-- Routing keeps its laws, whatever the sample (`43_formatter.md` R161, R168). -/
theorem Route.frame_obeys (route : Route) {clamp : Bool} {a : Word} (hrange : a ≤ maxSample)
    (hclamp : clamp = true → a ≤ one32) : (route.frame a).Obeys route clamp := by
  have hsilent : zero32 ≤ maxSample ∧ zero32 ≤ one32 := by decide
  cases route with
  | both => exact ⟨nofun, nofun, fun _ => rfl, ⟨hrange, hrange⟩, fun hc => ⟨hclamp hc, hclamp hc⟩⟩
  | left => exact ⟨fun _ => rfl, nofun, nofun, ⟨hrange, hsilent.1⟩, fun hc => ⟨hclamp hc, hsilent.2⟩⟩
  | right => exact ⟨nofun, fun _ => rfl, nofun, ⟨hsilent.1, hrange⟩, fun hc => ⟨hsilent.2, hclamp hc⟩⟩

/-- A frame of an energy in range obeys the snapshots it is routed and clamped by (`43_formatter.md` R168, R170). -/
theorem frame_of_sample_obeys {p : Params} (hlegal : p.legal = true) {e : Nat} (hmax : e ≤ 2 * p.scale ^ 2)
    (route : Route) (clamp : Bool) : (route.frame (sample p.scale e clamp)).Obeys route clamp := by
  refine route.frame_obeys (BitVec.le_trans (sample_le_magBits _ _ _) (magBits_le_maxSample hlegal hmax)) ?_
  rintro rfl
  exact sample_le_one32 _ _

/-! ### The value invariant -/

namespace Block

section values

variable {p : Params} {b : Block}

/-- At the last byte of a frame both sums have all `RATIO` samples (`41_decimation.md` R125). -/
theorem Sums.within_scale (hlegal : p.legal = true) (hs : b.Sums p) (hend : p.endsFrame b.n = true) (v : Byte) :
    |(b.accumulate b.n v).accI| ≤ p.scale ∧ |(b.accumulate b.n v).accQ| ≤ p.scale := by
  obtain ⟨hratio, -, -⟩ := (legal_iff p).1 hlegal
  have hoffset : b.n % p.frameLen = 2 * p.ratio - 1 := (endsFrame_iff p b.n).1 hend
  have hparity : b.n % p.frameLen % 2 = b.n % 2 := offset_mod_two p b.n
  have hodd : ¬b.n % 2 = 0 := by omega
  have hI : p.iTaken b.n = p.ratio := by rw [Params.iTaken]; omega
  have hQ : p.qTaken b.n + 1 = p.ratio := by rw [Params.qTaken]; omega
  have hscale : (p.scale : Int) = 255 * (p.ratio : Int) := Nat.cast_mul 255 p.ratio
  rw [accumulate_accI, accumulate_accQ, if_neg hodd, if_neg hodd, hscale]
  exact ⟨hI ▸ hs.accI_le, hQ ▸ abs_add_sampleCode_le hs.accQ_le v⟩

theorem Values.startIfIdle (hv : b.Values p) : b.startIfIdle.Values p := by
  obtain ⟨-, h⟩ | ⟨-, h⟩ := b.startIfIdle_cases <;> rw [h]
  · exact ⟨Nat.zero_le _, hv.peak_le, fun j _ hj => by simp at hj⟩
  · exact hv

theorem Values.accumulate (hv : b.Values p) (m : Nat) (v : Byte) : (b.accumulate m v).Values p where
  emax_le := by simpa using hv.emax_le
  peak_le := by simpa using hv.peak_le
  frames_obey := by simpa using hv.frames_obey

/-- Within a frame the count moves on and completes none. -/
theorem Values.count (hlegal : p.legal = true) (hv : b.Values p) (hend : p.endsFrame b.n = false) :
    ({ b with n := b.n + 1 } : Block).Values p :=
  { hv with
    frames_obey := by
      have hdiv : (b.n + 1) / p.frameLen = b.n / p.frameLen :=
        Nat.succ_div_of_not_dvd (mt (endsFrame_iff_dvd hlegal b.n).2 (by simp [hend]))
      simpa only [hdiv] using hv.frames_obey }

/-- The frame completed next, of an energy in range, joins the completed ones (`41_decimation.md` R123). -/
theorem Values.completeFrame (hlegal : p.legal = true) (hv : b.Values p) (hmax : energy b.accI b.accQ ≤ 2 * p.scale ^ 2)
    (hend : p.endsFrame b.n = true) :
    ({ b.completeFrame p (b.n / p.frameLen) with n := b.n + 1 } : Block).Values p where
  emax_le := max_le hv.emax_le hmax
  peak_le := hv.peak_le
  frames_obey := by
    intro j f hj hf
    rw [Nat.succ_div_of_dvd ((endsFrame_iff_dvd hlegal _).1 hend), Nat.lt_succ_iff_lt_or_eq] at hj
    obtain hbefore | rfl := hj
    · rw [completeFrame_outbuf, List.getElem?_set_ne hbefore.ne'] at hf
      exact hv.frames_obey j f hbefore hf
    · rw [completeFrame_outbuf, List.getElem?_set, if_pos rfl] at hf
      obtain ⟨-, hstored⟩ := Option.ite_none_right_eq_some.1 hf
      obtain rfl := Option.some.inj hstored
      exact frame_of_sample_obeys hlegal hmax _ _

theorem Values.useByte (hlegal : p.legal = true) (hs : b.Sums p) (hv : b.Values p) (v : Byte) :
    (b.useByte p v).Values p := by
  obtain ⟨hend, h⟩ | ⟨hend, h⟩ := useByte_cases p b v <;> rw [h]
  · obtain ⟨hI, hQ⟩ := hs.within_scale hlegal hend v
    simpa using (hv.accumulate b.n v).completeFrame hlegal (energy_le hI hQ) (by simpa using hend)
  · simpa using (hv.accumulate b.n v).count hlegal (by simpa using hend)

theorem Values.dataBeat (hlegal : p.legal = true) (hs : b.Sums p) (hv : b.Values p) (v : Byte) :
    (b.dataBeat p v).Values p := by
  obtain ⟨-, h⟩ | ⟨-, -, h⟩ | ⟨-, -, h⟩ := dataBeat_cases p b v <;> rw [h]
  · exact hv
  · exact hv.useByte hlegal hs v
  · exact { hv with }

theorem Values.endBuffer (hv : b.Values p) : (b.endBuffer p).Values p := by
  obtain ⟨-, h⟩ | ⟨-, -, h⟩ | ⟨-, -, -, h⟩ := endBuffer_cases p b <;> rw [h] <;> exact { hv with }

/-- The reported peak is the magnitude of an energy in range (`43_formatter.md` R166). -/
theorem Values.endSink (hlegal : p.legal = true) (hv : b.Values p) (acc : Nat) : (b.endSink p acc).Values p :=
  { hv with peak_le := magBits_le_maxSample hlegal hv.emax_le }

theorem Values.acceptFrame (hlegal : p.legal = true) (hv : b.Values p) : (b.acceptFrame p).Values p := by
  have hmoved : ({ b with w := b.w + 1 } : Block).Values p := { hv with }
  obtain ⟨-, h⟩ | ⟨-, h⟩ := acceptFrame_cases p b <;> rw [h]
  · exact hmoved
  · exact hmoved.endSink hlegal _

theorem values_reset (p : Params) : (Block.reset p).Values p where
  emax_le := Nat.zero_le _
  peak_le := (by decide : (0 : Word) ≤ maxSample)
  frames_obey := fun j _ hj => absurd hj (by simp [Block.reset])

end values

end Block

/-- Every operation keeps the value invariant: only a beat that ends a frame and the end of a sink phase write one of
its values. -/
theorem Effect.keeps_values {i : Instr} {s t : State} (h : Effect s i t) (hlegal : s.cfg.legal = true)
    (hs : s.block.Sums s.cfg) (hv : s.block.Values s.cfg) : t.block.Values s.cfg := by
  cases h with
  | answered | ignored | waited => exact hv
  | wroteCtrl | wroteStatus | wroteShutdown => exact { hv with }
  | beat v => exact { hv.startIfIdle.dataBeat hlegal hs.startIfIdle v with }
  | lastBeat v => exact (hv.startIfIdle.dataBeat hlegal hs.startIfIdle v).endBuffer
  | accepted => exact hv.acceptFrame hlegal
  | sinkFailed =>
    have hraised : s.block.raiseSinkErr.Values s.cfg := { hv with }
    exact hraised.endSink hlegal _
  | reset => exact Block.values_reset _

/-- Settles O59: every outcome of an operation keeps the sums and the values, and `step_keeps` carries them to the
step. -/
theorem stepKeepsTheValues : Obligations.StepKeepsTheValues := fun _ _ hs h =>
  step_keeps (P := fun p b => p.legal = true ∧ b.Sums p ∧ b.Values p)
    (fun _ _ _ ⟨hlegal, hsums, hvalues⟩ hexec => by
      have heffect := effect_of_exec hexec
      rw [heffect.keeps_cfg]
      exact ⟨hlegal, heffect.keeps_sums hlegal hsums, heffect.keeps_values hlegal hsums hvalues⟩)
    hs h

end Sys2Proof.Machine

/-! The sink phase (`43_formatter.md` R164 to R171): the two responses with their next states written out, the frame that
an accept delivers, and the peak a sink phase reports. -/

namespace Sys2Proof.Machine

/-! ### Turns without an operation (R167, log 4) -/

theorem step_of_no_turn {s : State} (hturns : s.env.turns = []) : step s = .next s := by
  simp only [step, hturns]

section noOperation

variable {s : State} {p : Port} {later : List Port}

theorem step_of_no_offer (hturns : s.env.turns = p :: later) (hoffer : s.env.offered p = none) :
    step s = .next (s.turn later) := by
  simp only [step, hturns, hoffer]

theorem step_of_noOperation {o : Offer} {why : NoOperation} (hturns : s.env.turns = p :: later)
    (hoffer : s.env.offered p = some o) (hdecode : decode o = .noOperation why) :
    step s = .next ((s.turn later).take p) := by
  simp only [step, hturns, hoffer, hdecode]

end noOperation

/-- Settles O8. -/
theorem withoutAnOperationTheBlockStays : Obligations.WithoutAnOperationTheBlockStays :=
  fun _ => ⟨step_of_no_turn, fun _ _ hturns =>
    ⟨step_of_no_offer hturns, fun _ _ hoffer hdecode => step_of_noOperation hturns hoffer hdecode⟩⟩

/-! ### The two responses -/

/-- An accept delivers the frame offered (`43_formatter.md` R164, `30_encoding.md` R73). -/
theorem exec_snkAccept_of_frame {s : State} {f : Frame} (hsink : s.block.phase = .sink)
    (hframe : s.block.outbuf[s.block.w]? = some f) :
    exec .snkAccept s = .next { s with
      block := s.block.acceptFrame s.cfg
      env := { s.env with sinkGot := s.env.sinkGot ++ [f.word] } } := by
  have hdata : s.block.snkData.toList = [f.word] := by rw [Block.snkData, hframe]; rfl
  rw [exec_snkAccept_of_sink hsink, ← hdata]
  rfl

namespace Block

theorem acceptFrame_of_more {p : Params} {b : Block} (h : b.w + 1 ≠ p.frames) :
    b.acceptFrame p = { b with w := b.w + 1 } := if_neg h

theorem acceptFrame_of_last {p : Params} {b : Block} (h : b.w + 1 = p.frames) :
    b.acceptFrame p = { b with w := p.frames }.endSink p p.frames := by
  rw [acceptFrame, if_pos h, h]

end Block

/-- Settles O27. -/
theorem acceptDeliversFrameAndMovesOn : Obligations.AcceptDeliversFrameAndMovesOn := by
  intro s f hsink hmore hframe
  rw [exec_snkAccept_of_frame hsink hframe, Block.acceptFrame_of_more hmore.ne]
  rfl

/-- Settles O28. -/
theorem lastAcceptEndsTheSinkPhase : Obligations.LastAcceptEndsTheSinkPhase := by
  intro s f hsink hlast hframe
  rw [exec_snkAccept_of_frame hsink hframe, Block.acceptFrame_of_last hlast]
  rfl

/-- Settles O29. -/
theorem sinkErrorEndsTheSinkPhase : Obligations.SinkErrorEndsTheSinkPhase :=
  fun acc _ hsink => exec_snkError_of_sink acc hsink

/-- Settles O30: outside `SINK` nothing changes, and in `SINK` both responses write only the fields left open. -/
theorem sinkResponsesLeaveTheDatapathAlone : Obligations.SinkResponsesLeaveTheDatapathAlone := by
  intro acc i s t hi h
  by_cases hsink : s.block.phase = .sink
  · obtain rfl | rfl := hi
    · rw [exec_snkAccept_of_sink hsink] at h
      cases h
      obtain ⟨-, hb⟩ | ⟨-, hb⟩ := s.block.acceptFrame_cases s.cfg <;> rw [State.withBlock_block, hb] <;>
        exact ⟨rfl, fun _ => rfl, rfl, rfl, fun _ => rfl, nofun⟩
    · rw [exec_snkError_of_sink acc hsink] at h
      cases h
      exact ⟨rfl, fun _ => rfl, rfl, rfl, nofun, fun _ => ⟨rfl, rfl⟩⟩
  · have hport : i.port = .snk := by obtain rfl | rfl := hi <;> rfl
    rw [exec_snk_of_not_sink hport hsink] at h
    cases h
    exact ⟨rfl, fun _ => rfl, rfl, rfl, fun _ => rfl, fun _ => ⟨rfl, rfl⟩⟩

/-! ### The frame delivered -/

theorem Block.frames_of_full {p : Params} (hlegal : p.legal = true) {b : Block} (hn : b.n = p.rawLen) :
    b.n / p.frameLen = p.frames := by
  have hlen : 0 < p.frameLen := Nat.lt_of_lt_of_le Nat.zero_lt_two (legal_lengths hlegal).2
  rw [hn, rawLen_eq, Nat.mul_div_cancel _ hlen]

/-- Settles O31: in `SINK` the buffer is full, so frame `w` is one that the invocation has completed. -/
theorem deliveredFrameObeysItsSnapshots : Obligations.DeliveredFrameObeysItsSnapshots := by
  rintro s ⟨hlegal, hshape⟩ ⟨-, -, hvalues⟩ hsink
  obtain ⟨hw, hn, -, -⟩ := hshape.sink_valid hsink
  have hframe := List.getElem?_eq_getElem (l := s.block.outbuf) (hshape.outbuf_length ▸ hw)
  have hcompleted : s.block.w < s.block.n / s.cfg.frameLen := by rwa [Block.frames_of_full hlegal hn]
  exact ⟨_, _, exec_snkAccept_of_frame hsink hframe, rfl, hframe, hvalues.frames_obey _ _ hcompleted hframe⟩

/-! ### The frames delivered from reset on (R169) -/

/-- The frames of an ended sink phase that the Sink was given. -/
def Served.delivered (v : Served) : List (BitVec 64) := v.frames.take v.accepted

/-- The sink phase that the operation `i` ends, where it takes the machine from `s` to `t`. -/
def servedBy (i : Instr) (s t : State) : List Served :=
  if s.block.phase = .sink ∧ t.block.phase = .idle then
    [{ frames := s.block.outbuf.map Frame.word
       accepted := if i = .rst then s.block.w else t.block.lastAcc.toNat }]
  else []

theorem servedAlong_cons {i : Instr} {later : List Instr} {s u : State} (h : exec i s = .next u) :
    servedAlong (i :: later) s = servedBy i s u ++ servedAlong later u := by
  simp only [servedAlong, h, servedBy]

/-- What is delivered from `s` to `t` takes the frames accepted at `s` to those of the sink phases `served` and the
ones accepted at `t` (`43_formatter.md` R169). -/
def DeliversServed (served : List Served) (s t : State) : Prop :=
  ∃ sent, t.env.sinkGot = s.env.sinkGot ++ sent ∧
    s.block.acceptedSoFar ++ sent = served.flatMap Served.delivered ++ t.block.acceptedSoFar

namespace DeliversServed

variable {served more : List Served} {s t u : State}

theorem refl (s : State) : DeliversServed [] s s := ⟨[], by simp, by simp⟩

theorem trans (h : DeliversServed served s t) (h' : DeliversServed more t u) :
    DeliversServed (served ++ more) s u := by
  obtain ⟨sent, hgot, hserved⟩ := h
  obtain ⟨sent', hgot', hserved'⟩ := h'
  refine ⟨sent ++ sent', by rw [hgot', hgot, List.append_assoc], ?_⟩
  rw [← List.append_assoc, hserved, List.append_assoc, hserved', List.flatMap_append, List.append_assoc]

end DeliversServed

namespace Block

variable {b : Block}

theorem acceptedSoFar_of_sink (h : b.phase = .sink) : b.acceptedSoFar = (b.outbuf.map Frame.word).take b.w := if_pos h

theorem acceptedSoFar_of_not_sink (h : b.phase ≠ .sink) : b.acceptedSoFar = [] := if_neg h

/-- The frame offered comes next after the accepted ones. -/
theorem take_append_snkData (b : Block) :
    (b.outbuf.map Frame.word).take b.w ++ b.snkData.toList = (b.outbuf.map Frame.word).take (b.w + 1) := by
  rw [snkData_toList, List.take_add, List.map_take, List.map_drop]

/-- A buffer that ends leaves no frame of it accepted. -/
theorem acceptedSoFar_endBuffer (p : Params) (b : Block) : (b.endBuffer p).acceptedSoFar = [] := by
  by_cases hsink : (b.endBuffer p).phase = .sink
  · rw [acceptedSoFar_of_sink hsink, (endBuffer_of_sink hsink).2, List.take_zero]
  · exact acceptedSoFar_of_not_sink hsink

end Block

/-- The counts of a legal block fit their 32-bit registers (log 16). -/
theorem toNat_ofNat_of_le_frames {p : Params} (hlegal : p.legal = true) {m : Nat} (hm : m ≤ p.frames) :
    (BitVec.ofNat 32 m).toNat = m := by
  obtain ⟨hratio, -, hproduct⟩ := (legal_iff p).1 hlegal
  have hframes : 2 * p.frames * 1 ≤ 2 * p.frames * p.ratio := Nat.mul_le_mul_left _ hratio
  rw [BitVec.toNat_ofNat, Nat.mod_eq_of_lt (by omega)]

section delivery

variable {i : Instr} {s t : State}

/-- An operation that ends no sink phase adds what it sends to the accepted frames. -/
theorem deliversServed_of_not_ended (hno : ¬(s.block.phase = .sink ∧ t.block.phase = .idle)) {sent : List (BitVec 64)}
    (hgot : t.env.sinkGot = s.env.sinkGot ++ sent) (hsent : s.block.acceptedSoFar ++ sent = t.block.acceptedSoFar) :
    DeliversServed (servedBy i s t) s t :=
  ⟨sent, hgot, by rw [servedBy, if_neg hno, hsent, List.flatMap_nil, List.nil_append]⟩

/-- Where an operation ends a sink phase, the frames accepted are those the ended phase has delivered. -/
theorem deliversServed_of_ended (hsink : s.block.phase = .sink) (hidle : t.block.phase = .idle)
    {sent : List (BitVec 64)} (hgot : t.env.sinkGot = s.env.sinkGot ++ sent)
    (hsent : (s.block.outbuf.map Frame.word).take s.block.w ++ sent =
      (s.block.outbuf.map Frame.word).take (if i = .rst then s.block.w else t.block.lastAcc.toNat)) :
    DeliversServed (servedBy i s t) s t := by
  refine ⟨sent, hgot, ?_⟩
  rw [servedBy, if_pos ⟨hsink, hidle⟩, Block.acceptedSoFar_of_sink hsink, hsent,
    Block.acceptedSoFar_of_not_sink (by simp [hidle]), List.append_nil, List.flatMap_singleton]
  rfl

/-- A control request and a waiting operation leave the sink phase as it is. -/
theorem deliversServed_of_kept (hphase : t.block.phase = s.block.phase) (hgot : t.env.sinkGot = s.env.sinkGot)
    (haccepted : t.block.acceptedSoFar = s.block.acceptedSoFar) : DeliversServed (servedBy i s t) s t := by
  refine deliversServed_of_not_ended (sent := []) ?_ (by simp [hgot]) (by simp [haccepted])
  rintro ⟨hsink, hidle⟩
  simp [hphase, hsink] at hidle

/-- Every operation delivers as R169 says: an accept the frame offered, and no other any. -/
theorem Effect.deliversServed (h : Effect s i t) (hlegal : s.cfg.legal = true) (hs : s.block.Shape s.cfg) :
    DeliversServed (servedBy i s t) s t := by
  cases h with
  | answered | ignored | waited | wroteCtrl | wroteStatus | wroteShutdown => exact deliversServed_of_kept rfl rfl rfl
  | beat v hsink =>
    refine deliversServed_of_not_ended (sent := []) (fun hend => hsink hend.1) (by simp) ?_
    rw [Block.acceptedSoFar_of_not_sink hsink, Block.acceptedSoFar_of_not_sink (by simp)]
    rfl
  | lastBeat v hsink =>
    refine deliversServed_of_not_ended (sent := []) (fun hend => hsink hend.1) (by simp) ?_
    rw [Block.acceptedSoFar_of_not_sink hsink, State.withBlock_block, Block.acceptedSoFar_endBuffer]
    rfl
  | accepted hsink =>
    have hnext := s.block.take_append_snkData
    by_cases hlast : s.block.w + 1 = s.cfg.frames
    · refine deliversServed_of_ended hsink (by simp [Block.acceptFrame_phase, hlast]) rfl ?_
      rw [hnext, hlast, State.withBlock_block, Block.acceptFrame_of_last hlast, if_neg (by nofun), Block.endSink_lastAcc,
        toNat_ofNat_of_le_frames hlegal le_rfl]
    · rw [Block.acceptFrame_of_more hlast]
      refine deliversServed_of_not_ended (by simp [hsink]) rfl ?_
      rw [Block.acceptedSoFar_of_sink hsink, hnext, Block.acceptedSoFar_of_sink (by simpa using hsink)]
      rfl
  | sinkFailed acc hsink =>
    refine deliversServed_of_ended (sent := []) hsink rfl (List.append_nil _).symm ?_
    rw [List.append_nil, if_neg (by nofun), State.withBlock_block, Block.endSink_lastAcc,
      toNat_ofNat_of_le_frames hlegal hs.w_le]
  | reset =>
    by_cases hsink : s.block.phase = .sink
    · exact deliversServed_of_ended (sent := []) hsink rfl (List.append_nil _).symm (List.append_nil _)
    · refine deliversServed_of_not_ended (sent := []) (fun hend => hsink hend.1) (by simp) ?_
      rw [Block.acceptedSoFar_of_not_sink hsink]
      rfl

end delivery

/-- Along any operations the deliveries of each one add up. -/
theorem runOps_deliversServed (ops : List Instr) {s : State} (hlegal : s.cfg.legal = true)
    (hs : s.block.Shape s.cfg) : ∃ t, runOps ops s = .next t ∧ DeliversServed (servedAlong ops s) s t := by
  induction ops generalizing s with
  | nil => exact ⟨s, rfl, .refl s⟩
  | cons i later ih =>
    obtain ⟨u, hu, heffect⟩ := exec_effect i s
    have hcfg := heffect.keeps_cfg
    obtain ⟨t, ht, hserved⟩ := ih (hcfg ▸ hlegal) (hcfg ▸ heffect.keeps_shape hlegal hs)
    rw [runOps_cons hu, servedAlong_cons hu]
    exact ⟨t, ht, (heffect.deliversServed hlegal hs).trans hserved⟩

/-- Settles O48: at reset nothing has been delivered or accepted. -/
theorem deliveredStreamIsThePrefixesInOrder : Obligations.DeliveredStreamIsThePrefixesInOrder := by
  intro p ops hlegal
  obtain ⟨t, ht, sent, hgot, hserved⟩ := runOps_deliversServed ops (s := State.resetWith p) hlegal (Block.shape_reset p)
  exact ⟨t, ht, hgot.trans hserved⟩

/-! ### The peak of a full-scale buffer (R171) -/

/-- Accepts before the last frame only move the index on. -/
theorem runOps_accepts_more (k : Nat) {s : State} (hsink : s.block.phase = .sink)
    (hk : s.block.w + k < s.cfg.frames) :
    ∃ t, runOps (List.replicate k .snkAccept) s = .next t ∧ t.cfg = s.cfg ∧
      t.block = { s.block with w := s.block.w + k } := by
  induction k generalizing s with
  | zero => exact ⟨s, rfl, rfl, rfl⟩
  | succ k ih =>
    rw [List.replicate_succ, runOps_cons (exec_snkAccept_of_sink hsink), Block.acceptFrame_of_more (by omega)]
    obtain ⟨t, ht, hcfg, hblock⟩ := ih (s := s.deliver.withBlock { s.block with w := s.block.w + 1 }) hsink
      (show s.block.w + 1 + k < s.cfg.frames by omega)
    exact ⟨t, ht, hcfg, by rw [hblock, State.withBlock_block, Nat.add_right_comm, Nat.add_assoc]⟩

section sinkPhase

variable {s : State} (hsink : s.block.phase = .sink) (hw : s.block.w = 0)

include hsink hw

/-- A sink phase whose frames are all accepted reports the largest energy's magnitude. -/
theorem runOps_accepts_all (hframes : 0 < s.cfg.frames) :
    ∃ t, runOps (List.replicate s.cfg.frames .snkAccept) s = .next t ∧
      t.block.peak = magBits s.cfg.scale s.block.emax ∧ t.block.phase = .idle := by
  obtain ⟨m, hm⟩ := Nat.exists_eq_add_of_le' hframes
  obtain ⟨u, hu, hcfg, hblock⟩ := runOps_accepts_more m hsink (by omega)
  have hlast : u.block.w + 1 = u.cfg.frames := by rw [hblock, hcfg, hm, hw, Nat.zero_add]
  have haccept := exec_snkAccept_of_sink (s := u) (by rw [hblock]; exact hsink)
  rw [Block.acceptFrame_of_last hlast] at haccept
  rw [hm, List.replicate_succ', runOps_append hu, runOps_cons haccept]
  exact ⟨_, rfl, by rw [State.withBlock_block, Block.endSink_peak, hcfg, hblock], rfl⟩

/-- A sink phase whose frame `k` is refused reports the same, and `k` as the count of accepted frames. -/
theorem runOps_accepts_error (acc : BitVec 1) {k : Nat} (hk : k < s.cfg.frames) :
    ∃ t, runOps (List.replicate k .snkAccept ++ [.snkError acc]) s = .next t ∧
      t.block.peak = magBits s.cfg.scale s.block.emax ∧ t.block.lastAcc = BitVec.ofNat 32 k ∧
      t.block.phase = .idle := by
  obtain ⟨u, hu, hcfg, hblock⟩ := runOps_accepts_more k hsink (by omega)
  have herror := exec_snkError_of_sink acc (s := u) (by rw [hblock]; exact hsink)
  rw [runOps_append hu, runOps_cons herror]
  refine ⟨_, rfl, ?_, ?_, rfl⟩
  · rw [State.withBlock_block, Block.endSink_peak, hcfg, Block.raiseSinkErr_emax, hblock]
  · rw [State.withBlock_block, Block.endSink_lastAcc, hblock, hw, Nat.zero_add]

end sinkPhase

end Sys2Proof.Machine

namespace Sys2Proof

theorem laneSum_abs_le (p : Params) (bytes : List Byte) (lane j k : Nat) :
    |laneSum p bytes lane j k| ≤ 255 * (k : Int) := by
  induction k with
  | zero => simp [laneSum]
  | succ k ih =>
    rw [laneSum_succ]
    exact abs_add_sampleCode_le ih _

/-- No frame of a buffer has a larger energy (`42_magnitude.md` R140). -/
theorem bufferEnergy_le (p : Params) (bytes : List Byte) (j : Nat) : bufferEnergy p bytes j ≤ 2 * p.scale ^ 2 := by
  have hscale : (p.scale : Int) = 255 * (p.ratio : Int) := Nat.cast_mul 255 p.ratio
  rw [bufferEnergy_eq, sumI_eq_laneSum, sumQ_eq_laneSum]
  exact Machine.energy_le (hscale ▸ laneSum_abs_le p bytes 0 j p.ratio) (hscale ▸ laneSum_abs_le p bytes 1 j p.ratio)

namespace Machine

/-- Settles O50: the buffer leaves `emax` at the largest energy, and both ends of its sink phase report it. -/
theorem fullScaleFrameGivesTheLargestPeak : Obligations.FullScaleFrameGivesTheLargestPeak := by
  intro s bytes ops acc j k hlegal houtbuf hidle hcancel hbuffer hlength hj hfull hk
  obtain ⟨u, _, hu, -, hsink, hw, -, hlargest, ⟨i, -, hmax⟩, -, hcfg, -⟩ :=
    validBufferFillsTheOutputBuffer s bytes ops hlegal houtbuf hidle hcancel hbuffer hlength
  have hemax : u.block.emax = 2 * s.cfg.scale ^ 2 :=
    Nat.le_antisymm (hmax ▸ bufferEnergy_le s.cfg bytes i) (hfull ▸ hlargest j hj)
  have hpeak : magBits u.cfg.scale u.block.emax = 0x3FB504F3 := by
    rw [hcfg, hemax]
    exact (fullScaleMagnitudes s.cfg hlegal).1
  have hrefused : k < u.cfg.frames := hcfg ▸ hk
  rw [runOps_append hu, runOps_append hu, ← hcfg, ← hpeak]
  exact ⟨runOps_accepts_all hsink hw (Nat.zero_lt_of_lt hrefused), runOps_accepts_error hsink hw acc hrefused⟩

end Machine

end Sys2Proof

/-! The control port's registers (`44_control.md` R190 to R204): the fields of the two register words, and each request
with the state it leaves. -/

namespace Sys2Proof.Machine

/-! ### The fields of the register words -/

/-- A word widened with zeros reads 0 above its own bits. -/
theorem extractLsb'_setWidth_above {k m : Nat} (x : BitVec k) (len : Nat) : (x.setWidth m).extractLsb' k len = 0 := by
  ext i hi
  simp

namespace Block

variable (b : Block)

theorem ctrlWord_route : b.ctrlWord.extractLsb' 0 2 = b.route.code := by
  rw [ctrlWord, BitVec.extractLsb'_setWidth_of_le (by decide), BitVec.extractLsb'_append_eq_right]

theorem ctrlWord_clamp : b.ctrlWord.getLsbD 2 = b.clamp := by
  rw [ctrlWord, BitVec.getLsbD_setWidth, BitVec.getLsbD_append]
  simp

theorem ctrlWord_reserved : b.ctrlWord.extractLsb' 3 29 = 0 := extractLsb'_setWidth_above _ 29

/-- The four flags are the bits below `PHASE` (`10_state.md` R23). -/
theorem statusWord_flags :
    b.statusWord.getLsbD 0 = b.cancel ∧ b.statusWord.getLsbD 1 = b.busy ∧ b.statusWord.getLsbD 2 = b.lenErr ∧
      b.statusWord.getLsbD 3 = b.sinkErr := by
  simp only [statusWord, BitVec.getLsbD_setWidth, BitVec.getLsbD_append]
  simp

theorem statusWord_phase : b.statusWord.extractLsb' 4 2 = b.phase.code := by
  rw [statusWord, BitVec.extractLsb'_setWidth_of_le (by decide), BitVec.extractLsb'_append_eq_of_le (by decide),
    BitVec.extractLsb'_append_eq_of_le (by decide), BitVec.extractLsb'_append_eq_of_le (by decide)]
  exact BitVec.extractLsb'_append_eq_left

theorem statusWord_reserved : b.statusWord.extractLsb' 6 26 = 0 := extractLsb'_setWidth_above _ 26

theorem busy_eq_decide : b.busy = decide (b.phase ≠ .idle) := by
  cases h : b.phase <;> simp [busy, h]

end Block

/-! ### The reads -/

/-- Settles O11: the answer is `CTRL`'s word, whose fields are read back one by one. -/
theorem ctrlReadAnswersItsFields : Obligations.CtrlReadAnswersItsFields := fun _ _ s =>
  ⟨s.block.ctrlWord, rfl, s.block.ctrlWord_route, s.block.ctrlWord_clamp, s.block.ctrlWord_reserved⟩

/-- Settles O12: the answer is `STATUS`'s word, whose fields are read back one by one. -/
theorem statusReadAnswersItsBits : Obligations.StatusReadAnswersItsBits := by
  intro a d s
  obtain ⟨hcancel, hbusy, hlen, hsink⟩ := s.block.statusWord_flags
  exact ⟨s.block.statusWord, rfl, hcancel, hbusy.trans s.block.busy_eq_decide, hlen, hsink, s.block.statusWord_phase,
    s.block.statusWord_reserved⟩

/-- Settles O13: each read is `State.answer` with its register, or with 0. -/
theorem otherReadsAnswerTheirRegister : Obligations.OtherReadsAnswerTheirRegister := fun _ _ _ _ =>
  ⟨rfl, rfl, rfl, rfl, rfl, rfl, rfl, rfl, rfl⟩

/-! ### The writes -/

/-- Settles O14: each of these meanings is the state itself. -/
theorem readOnlyAndReservedWritesAreIgnored : Obligations.ReadOnlyAndReservedWritesAreIgnored := fun _ _ _ _ =>
  ⟨rfl, rfl, rfl, rfl, rfl, rfl, rfl, rfl⟩

/-- Settles O15: `ROUTE` becomes `Route.write` of the two low bits, which is evaluated at each of their four values. -/
theorem ctrlWriteIsWarl : Obligations.CtrlWriteIsWarl := by
  intro a d s
  have hroute := fun bits => congrArg (a₁ := d.extractLsb' 0 2) (a₂ := bits) s.block.route.write
  exact ⟨_, rfl, hroute 0b00, hroute 0b01, hroute 0b10, hroute 0b11⟩

/-- A 1 written to a sticky bit clears it, a 0 keeps it (`44_control.md` R193). -/
theorem Block.writeStatus_eq_ite (b : Block) (d : Word) :
    b.writeStatus d = { b with
      lenErr := if d.getLsbD 2 then false else b.lenErr
      sinkErr := if d.getLsbD 3 then false else b.sinkErr } := by
  simp [Block.writeStatus, Bool.and_comm]

/-- Settles O16: the write replaces the block by `Block.writeStatus` and nothing else. -/
theorem statusWriteClearsWhereOneIsWritten : Obligations.StatusWriteClearsWhereOneIsWritten := fun _ d s =>
  congrArg (Host.Outcome.next ∘ s.withBlock) (s.block.writeStatus_eq_ite d)

/-- A 1 written to bit 0 sets `CANCEL`, a 0 keeps it (`44_control.md` R194). -/
theorem Block.writeShutdown_eq_ite (b : Block) (d : Word) :
    b.writeShutdown d = { b with cancel := if d.getLsbD 0 then true else b.cancel } := by
  simp [Block.writeShutdown, Bool.or_comm]

/-- Settles O17: `src_abort` is `CANCEL` by definition (`10_state.md` R38), so it follows the write. -/
theorem shutdownWriteSetsCancel : Obligations.ShutdownWriteSetsCancel := by
  intro a d s
  have hwrite := s.block.writeShutdown_eq_ite d
  exact ⟨rfl, _, rfl, congrArg s.withBlock hwrite, congrArg Block.srcAbort hwrite⟩

/-! ### Every request -/

/-- Settles O19, by the outcomes of an operation: a read reaches the Host's answers alone, and the three writes that are
not ignored reach the Host's fields of the block alone. -/
theorem controlRequestsCompleteAndLeaveTheEngineAlone :
    Obligations.ControlRequestsCompleteAndLeaveTheEngineAlone := by
  intro i s hport
  obtain ⟨t, ht, heffect⟩ := exec_effect i s
  refine ⟨t, ht, ?_⟩
  cases heffect with
  | answered | ignored | waited => exact ⟨rfl, rfl, rfl, .inl rfl⟩
  | wroteCtrl | wroteStatus | wroteShutdown => exact ⟨rfl, rfl, rfl, .inr rfl⟩
  | beat | lastBeat | accepted | sinkFailed | reset => cases hport

end Sys2Proof.Machine

/-! Exceptions (`60_exceptions.md`). The block has no fault (R221, R224), and its two sticky error bits move by their
events alone. -/

namespace Sys2Proof.Machine

/-! ### No fault and no refusal (R221, R224) -/

/-- Settles O10: a turn without an operation keeps the parameters, and so does every outcome of an operation. -/
theorem noStepFaultsAndTheParametersStay : Obligations.NoStepFaultsAndTheParametersStay := by
  intro s
  obtain ⟨-, e⟩ | ⟨p, later, -, ⟨-, e⟩ | ⟨_, _, -, -, e⟩ | ⟨_, i, -, -, -, e⟩⟩ := step_cases s
  · exact ⟨s, e, rfl⟩
  · exact ⟨_, e, State.turn_cfg s later⟩
  · exact ⟨_, e, State.take_cfg (s.turn later) p⟩
  · obtain ⟨t, ht, heffect⟩ := exec_effect i ((s.turn later).takeIfReady p)
    exact ⟨t, e.trans ht, heffect.keeps_cfg.trans (State.takeIfReady_cfg (s.turn later) p)⟩

/-! ### The sticky error bits (`10_state.md` R25, R26) -/

/-- What the operation `i` can do to a sticky bit, at `bit` of `STATUS`, whose event is `raises`. -/
inductive StickyMove (bit : Nat) (raises : Prop) (old new : Bool) : Instr → Prop
  | kept {i : Instr} (h : new = old) : StickyMove bit raises old new i
  | raised {i : Instr} (h : raises) (hset : new = true) : StickyMove bit raises old new i
  /-- The write clears where a 1 is written (`44_control.md` R193). -/
  | written (a : BitVec 2) (d : Word) (h : new = (old && !d.getLsbD bit)) :
      StickyMove bit raises old new (.ctlWrStatus a d)
  | reset (h : new = false) : StickyMove bit raises old new .rst

namespace StickyMove

variable {bit : Nat} {raises : Prop} {old new : Bool} {i : Instr}

theorem raises_of_set (h : StickyMove bit raises old new i) (hold : old = false) (hnew : new = true) : raises := by
  subst hold hnew
  cases h with
  | raised h => exact h
  | kept h | written _ _ h | reset h => simp at h

theorem cleared_by (h : StickyMove bit raises old new i) (hold : old = true) (hnew : new = false) :
    i = .rst ∨ ∃ a d, i = .ctlWrStatus a d ∧ d.getLsbD bit = true := by
  subst hold hnew
  cases h with
  | kept h | raised _ h => simp at h
  | written a d h => exact .inr ⟨a, d, rfl, by simpa using h⟩
  | reset => exact .inl rfl

end StickyMove

section

variable {i : Instr} {s t : State}

/-- Of the three ends of a buffer only the one of the wrong length reaches `LEN_ERR` (`40_invocation.md` R104). -/
theorem Effect.moves_lenErr (h : Effect s i t) :
    StickyMove 2
      ((∃ v, i = .iqBeatLast v) ∧ s.block.phase ≠ .sink ∧ t.block.invCancel = false ∧
        (t.block.overLen = true ∨ t.block.n ≠ s.cfg.rawLen))
      s.block.lenErr t.block.lenErr i := by
  cases h with
  | answered | ignored | waited | wroteCtrl | wroteShutdown => exact .kept rfl
  | beat | accepted | sinkFailed => exact .kept (by simp)
  | wroteStatus a d => exact .written a d rfl
  | reset => exact .reset rfl
  | lastBeat v hsink =>
    obtain ⟨-, hb⟩ | ⟨hcancel, hwrong, hb⟩ | ⟨-, -, -, hb⟩ :=
      (s.block.startIfIdle.dataBeat s.cfg v).endBuffer_cases s.cfg
    · exact .kept (by simp [hb])
    · rw [hb]
      exact .raised ⟨⟨v, rfl⟩, hsink, hcancel, hwrong⟩ rfl
    · exact .kept (by simp [hb])

/-- `SNK_ERROR` alone reaches `SINK_ERR` (`43_formatter.md` R165). -/
theorem Effect.moves_sinkErr (h : Effect s i t) :
    StickyMove 3 ((∃ acc, i = .snkError acc) ∧ s.block.phase = .sink) s.block.sinkErr t.block.sinkErr i := by
  cases h with
  | answered | ignored | waited | wroteCtrl | wroteShutdown => exact .kept rfl
  | beat | lastBeat | accepted => exact .kept (by simp)
  | wroteStatus a d => exact .written a d rfl
  | sinkFailed acc hsink => exact .raised ⟨⟨acc, rfl⟩, hsink⟩ rfl
  | reset => exact .reset rfl

end

/-- Settles O54: each operation moves both bits as a sticky bit moves. -/
theorem errorBitsMoveOnlyByTheirEvents : Obligations.ErrorBitsMoveOnlyByTheirEvents := by
  intro i s t h
  have hlen := (effect_of_exec h).moves_lenErr
  have hsink := (effect_of_exec h).moves_sinkErr
  exact ⟨hlen.raises_of_set, hsink.raises_of_set, hlen.cleared_by, hsink.cleared_by⟩

end Sys2Proof.Machine

/-! Reset (`70_reset_and_hazards.md` R240, R241). `Block.reset` is R20's column of reset values, so what holds after `RST`
is a fact about that block. -/

namespace Sys2Proof.Machine

/-! ### The block after reset -/

namespace Block

variable (p : Params)

@[simp] theorem reset_phase : (Block.reset p).phase = .idle := rfl

@[simp] theorem reset_cancel : (Block.reset p).cancel = false := rfl

/-- Outside `SINK` a beat is taken (`10_state.md` R38). -/
theorem reset_iqReady : (Block.reset p).iqReady = true := (iqReady_iff _).2 (by simp)

/-- Only in `SINK` is a frame offered (`10_state.md` R38). -/
theorem reset_snkValid : (Block.reset p).snkValid = false := by simp [snkValid]

/-- No frame has begun, and both sums are cleared. -/
theorem sums_reset : (Block.reset p).Sums p := sums_of_cleared (Nat.zero_mod _) rfl rfl

end Block

/-! ### The outcome of `RST` -/

/-- `RST` has no enabling condition (R240). -/
theorem exec_rst (s : State) : exec .rst s = .next (s.withBlock (Block.reset s.cfg)) := rfl

theorem block_of_exec_rst {s t : State} (h : exec .rst s = .next t) : t.block = Block.reset s.cfg := by
  rw [exec_rst] at h
  obtain rfl := Host.Outcome.next.inj h
  exact State.withBlock_block _ _

/-! ### The statements -/

/-- Settles O32: the values the statement writes out are those of `Block.reset`. -/
theorem resetRestoresEveryField : Obligations.ResetRestoresEveryField := exec_rst

/-- Settles O33: the phase decides the two stream ports, and `src_abort` is `CANCEL` (`10_state.md` R38). -/
theorem afterResetThePortsAreIdle : Obligations.AfterResetThePortsAreIdle := by
  intro s t h
  rw [block_of_exec_rst h]
  have hcancel := Block.reset_cancel s.cfg
  exact ⟨Block.reset_phase _, hcancel, Block.reset_iqReady _, Block.reset_snkValid _, hcancel⟩

theorem State.resetWith_invariants {p : Params} (hlegal : p.legal = true) :
    (State.resetWith p).ShapeInv ∧ (State.resetWith p).SumsInv ∧ (State.resetWith p).ValuesInv :=
  ⟨⟨hlegal, Block.shape_reset p⟩, ⟨hlegal, Block.sums_reset p⟩, ⟨hlegal, Block.sums_reset p, Block.values_reset p⟩⟩

/-- Settles O56: legality is all the invariants ask of the parameters, and the reference ones are legal (log 1). -/
theorem resetMeetsTheInvariants : Obligations.ResetMeetsTheInvariants :=
  ⟨fun _ => State.resetWith_invariants, State.resetWith_invariants (p := Params.reference) (by decide)⟩

end Sys2Proof.Machine
